-- ==== Sys2Proof/Word.lean ====
section
/-! DEFINITION. The word types of LTDC-SEQ (R11): registers and operand fields are 32-bit unsigned words, descriptor
halves 16, bytes 8, a palette entry 24, and a command word 16. Every value is unsigned and `+`, `-`, `*` on `Word` wrap
modulo 2^32 (R12). -/

namespace Sys2Proof

/-- `u32` (R11). -/
abbrev Word := BitVec 32

/-- `u16` (R11). -/
abbrev Half := BitVec 16

/-- `u8` (R11). -/
abbrev Byte := BitVec 8

/-- One RGB-888 palette entry, `u24` (R65). -/
abbrev Rgb := BitVec 24

/-- One command word, format CMD16 (R140). -/
abbrev CmdWord := BitVec 16

end Sys2Proof
end

