-- ==== Sys2Proof/Config.lean ====
section
/-! DEFINITION. What an implementation fixes: the parameters of R10. The numeric parameters stand here at the defaults
the spec chose (D4, D5, D12, D13, D25, D26, D45). The build options and the OPEN numbers that change what a command does
are the record `Params`, which State carries and no step writes, so that a claim over every State is a claim over every
build (log 11). The draws and the OPEN conversion are opaque constants: nothing can be proved of their values (log 8, 9). -/

namespace Sys2Proof.Config

/-- HBITS: width of every horizontal timing and window field. [family default, D5] -/
def hbits : Nat := 12

/-- VBITS: width of every vertical, line-count and line-position field. [family default, D5] -/
def vbits : Nat := 11

/-- LLBITS: width of the line-length field CFBLL ("low 13 bits"). -/
def llbits : Nat := 13

/-- PITCH_BITS: width of the pitch field CFBP ("pitch in high 16 bits", D13). -/
def pitchBits : Nat := 16

/-- CLUT_LEN, and MAX_CLUT_LEN of R76. -/
def clutLen : Nat := 256

/-- `mask(N) = 2^N − 1` (R12). -/
def mask (n : Nat) : Word := BitVec.ofNat 32 (2 ^ n - 1)

/-- The bounds the source names, with the spec's defaults (R76, D12): each the widest range its register field holds. -/
structure Limits where
  minHsync : Word
  maxHsync : Word
  minVsync : Word
  maxVsync : Word
  minHbp : Word
  maxHbp : Word
  minVbp : Word
  maxVbp : Word
  minScreenW : Word
  maxScreenW : Word
  minScreenH : Word
  maxScreenH : Word
  minHfp : Word
  maxHfp : Word
  minVfp : Word
  maxVfp : Word
  minAccHbp : Word
  maxAccHbp : Word
  minAccVbp : Word
  maxAccVbp : Word
  minAccAaw : Word
  maxAccAaw : Word
  minAccAah : Word
  maxAccAah : Word
  minAccTotalW : Word
  maxAccTotalW : Word
  minAccTotalH : Word
  maxAccTotalH : Word
  minLineBytes : Word
  maxLineBytes : Word
  minLines : Word
  maxLines : Word
  maxClutLen : Word
  pixfmtMin : Word
  pixfmtMax : Word
deriving DecidableEq, Repr

/-- LIMITS at its defaults (R76). -/
def limits : Limits where
  minHsync := 1
  maxHsync := BitVec.ofNat 32 (2 ^ hbits)
  minVsync := 1
  maxVsync := BitVec.ofNat 32 (2 ^ vbits)
  minHbp := 0
  maxHbp := mask hbits
  minVbp := 0
  maxVbp := mask vbits
  minScreenW := 1
  maxScreenW := BitVec.ofNat 32 (2 ^ hbits)
  minScreenH := 1
  maxScreenH := BitVec.ofNat 32 (2 ^ vbits)
  minHfp := 0
  maxHfp := mask hbits
  minVfp := 0
  maxVfp := mask vbits
  minAccHbp := 0
  maxAccHbp := mask hbits
  minAccVbp := 0
  maxAccVbp := mask vbits
  minAccAaw := 0
  maxAccAaw := mask hbits
  minAccAah := 0
  maxAccAah := mask vbits
  minAccTotalW := 0
  maxAccTotalW := mask hbits
  minAccTotalH := 0
  maxAccTotalH := mask vbits
  minLineBytes := 0
  maxLineBytes := mask llbits - 3
  minLines := 0
  maxLines := mask vbits
  maxClutLen := 256
  pixfmtMin := 0
  pixfmtMax := 7

/-- LTDC_BASE. [family default, D4] -/
def ltdcBase : Word := 0x40016800#32

/-- EV_IRQN, the event vector's number. [family default, D26] -/
def evIrqn : Nat := 88

/-- ER_IRQN, the error vector's number. [family default, D26] -/
def erIrqn : Nat := 89

/-- DITHER_WIDTHS: the read-only GCR bits DBW, DGW, DRW. [family default, D25] -/
def ditherWidths : Word := 0x00002220#32

/-- RESET_VALUES entry of LxCACR. [family default, D45] -/
def resetCacr : Word := 0x000000FF#32

/-- RESET_VALUES entry of LxBFCR. [family default, D45] -/
def resetBfcr : Word := 0x00000607#32

/-- The n-th draw of CPSR (R52, R425): a free value, log 8. -/
opaque cpsrDraw : Nat → Word

/-- The n-th received SPI byte, SPI_RX (R10, R381, D40): a free value, log 8. -/
opaque spiRx : Nat → Byte

/-- CONV_CLUT.to of a colour and an indexed format id (R364, D46): OPEN, log 9. -/
opaque convClutTo : Word → Word → Word

/-- CONV_CLUT.from of a colour and an indexed format id (R365, D46): OPEN, log 9. -/
opaque convClutFrom : Word → Word → Word

end Sys2Proof.Config

namespace Sys2Proof

/-- The parameters of R10 that change which steps a command takes. -/
structure Params where
  /-- CHECKS: the audit build (true) or the release build (false), R454. -/
  checks : Bool
  /-- USE_WAIT: "waiting is compiled in", R206. -/
  useWait : Bool
  /-- USE_MUTEX: the optional LTDC mutex is present, R146 (f). -/
  useMutex : Bool
  /-- RR_IRQ_ON_IMMEDIATE: an immediate commit sets RRIF, R421. -/
  rrIrqOnImmediate : Bool
  /-- IS_ENABLED_MASK_BUG: IS_LAYER_ENABLED uses the source's test, R282. -/
  isEnabledMaskBug : Bool
  /-- EV_PRIO, lower is more urgent (R457). OPEN. -/
  evPrio : Nat
  /-- ER_PRIO, lower is more urgent (R457). OPEN. -/
  erPrio : Nat
deriving DecidableEq, Repr

/-- The defaults of R10; the two OPEN priorities are set equal (DESIGN CHOICE, log 7). -/
def Params.default : Params where
  checks := true
  useWait := true
  useMutex := true
  rrIrqOnImmediate := false
  isEnabledMaskBug := false
  evPrio := 0
  erPrio := 0

end Sys2Proof
end

