-- ==== Sys2Proof/Syntax.lean ====
section
/-! DEFINITION. The command set (R3, R145): one constructor per row of spec/opcode_table.json. The layer bit L and the
form bit C of the command word (R140) are the constructors' arguments; the operand record travels beside the word
(R30, R140) and is no part of the instruction. -/

namespace Sys2Proof

/-- The layer a per-layer operation targets, the L bit: `l1` is background (L = 0), `l2` is foreground (L = 1). R13, R141. -/
inductive Layer where
  | l1
  | l2
deriving DecidableEq, Repr

/-- The call form, the C bit: `api` (C = 0) or `locked` (C = 1). R142. -/
inductive Form where
  | api
  | locked
deriving DecidableEq, Repr

/-- The 64 commands of R145. -/
inductive Instr where
  -- lifecycle, reload protocol, LTDC mutex, handlers
  /-- INIT, OP 0x00, class init, operands: none. R200. -/
  | init
  /-- START, OP 0x01, class S, operands: cfg_ptr. R202. -/
  | start (c : Form)
  /-- STOP, OP 0x02, class S, operands: none. R203. -/
  | stop (c : Form)
  /-- IS_RELOADING, OP 0x03, class I, operands: none. R204. -/
  | isReloading (c : Form)
  /-- START_RELOAD, OP 0x04, class I, operands: immediate. R205. -/
  | startReload (c : Form)
  /-- RELOAD_WAIT, OP 0x05, class S, operands: immediate. R206. -/
  | reloadWait (c : Form)
  /-- ACQUIRE_BUS, OP 0x06, class api, operands: none. R210. -/
  | acquireBus
  /-- RELEASE_BUS, OP 0x07, class api, operands: none. R211. -/
  | releaseBus
  /-- EVENT_IRQ, OP 0x08, class hardware, operands: none. R460. -/
  | eventIrq
  /-- ERROR_IRQ, OP 0x09, class hardware, operands: none. R461. -/
  | errorIrq
  -- global accessors
  /-- GET_GLOBAL_FLAGS, OP 0x10, class I, operands: none. R260. -/
  | getGlobalFlags (c : Form)
  /-- SET_GLOBAL_FLAGS, OP 0x11, class I, operands: flags. R261. -/
  | setGlobalFlags (c : Form)
  /-- GET_CLEAR_COLOR, OP 0x12, class I, operands: none. R262. -/
  | getClearColor (c : Form)
  /-- SET_CLEAR_COLOR, OP 0x13, class I, operands: color. R263. -/
  | setClearColor (c : Form)
  /-- GET_LINE_POS, OP 0x14, class I, operands: none. R264. -/
  | getLinePos (c : Form)
  /-- SET_LINE_POS, OP 0x15, class I, operands: line. R265. -/
  | setLinePos (c : Form)
  /-- GET_CURRENT_POS, OP 0x16, class I, operands: none. R266. -/
  | getCurrentPos (c : Form)
  -- per-layer surface: enables, format, key, alpha, default colour, blending
  /-- GET_ENABLE_FLAGS, OP 0x20, class I, operands: none. R280. -/
  | getEnableFlags (l : Layer) (c : Form)
  /-- SET_ENABLE_FLAGS, OP 0x21, class I, operands: flags. R281. -/
  | setEnableFlags (l : Layer) (c : Form)
  /-- IS_LAYER_ENABLED, OP 0x22, class I, operands: none. R282. -/
  | isLayerEnabled (l : Layer) (c : Form)
  /-- ENABLE_LAYER, OP 0x23, class I, operands: none. R283. -/
  | enableLayer (l : Layer) (c : Form)
  /-- DISABLE_LAYER, OP 0x24, class I, operands: none. R284. -/
  | disableLayer (l : Layer) (c : Form)
  /-- GET_PIXEL_FORMAT, OP 0x25, class I, operands: none. R285. -/
  | getPixelFormat (l : Layer) (c : Form)
  /-- SET_PIXEL_FORMAT, OP 0x26, class I, operands: fmt. R286. -/
  | setPixelFormat (l : Layer) (c : Form)
  /-- GET_KEY_COLOR, OP 0x27, class I, operands: none. R287. -/
  | getKeyColor (l : Layer) (c : Form)
  /-- SET_KEY_COLOR, OP 0x28, class I, operands: color. R288. -/
  | setKeyColor (l : Layer) (c : Form)
  /-- IS_KEYING_ENABLED, OP 0x29, class I, operands: none. R289. -/
  | isKeyingEnabled (l : Layer) (c : Form)
  /-- ENABLE_KEYING, OP 0x2A, class I, operands: none. R290. -/
  | enableKeying (l : Layer) (c : Form)
  /-- DISABLE_KEYING, OP 0x2B, class I, operands: none. R291. -/
  | disableKeying (l : Layer) (c : Form)
  /-- GET_CONST_ALPHA, OP 0x2C, class I, operands: none. R292. -/
  | getConstAlpha (l : Layer) (c : Form)
  /-- SET_CONST_ALPHA, OP 0x2D, class I, operands: alpha. R293. -/
  | setConstAlpha (l : Layer) (c : Form)
  /-- GET_DEFAULT_COLOR, OP 0x2E, class I, operands: none. R294. -/
  | getDefaultColor (l : Layer) (c : Form)
  /-- SET_DEFAULT_COLOR, OP 0x2F, class I, operands: color. R295. -/
  | setDefaultColor (l : Layer) (c : Form)
  /-- GET_BLENDING, OP 0x30, class I, operands: none. R296. -/
  | getBlending (l : Layer) (c : Form)
  /-- SET_BLENDING, OP 0x31, class I, operands: factors. R297. -/
  | setBlending (l : Layer) (c : Form)
  -- per-layer surface: palette, window, frame, whole layer
  /-- SET_PALETTE_ENTRY, OP 0x32, class I, operands: index, color. R305. -/
  | setPaletteEntry (l : Layer) (c : Form)
  /-- SET_PALETTE, OP 0x33, class I, operands: pal_ptr, pal_len. R306. -/
  | setPalette (l : Layer) (c : Form)
  /-- IS_PALETTE_ENABLED, OP 0x34, class I, operands: none. R307. -/
  | isPaletteEnabled (l : Layer) (c : Form)
  /-- ENABLE_PALETTE, OP 0x35, class I, operands: none. R308. -/
  | enablePalette (l : Layer) (c : Form)
  /-- DISABLE_PALETTE, OP 0x36, class I, operands: none. R309. -/
  | disablePalette (l : Layer) (c : Form)
  /-- GET_WINDOW, OP 0x37, class I, operands: out_ptr. R315. -/
  | getWindow (l : Layer) (c : Form)
  /-- SET_WINDOW, OP 0x38, class I, operands: win_ptr. R316. -/
  | setWindow (l : Layer) (c : Form)
  /-- SET_INVALID_WINDOW, OP 0x39, class I, operands: none. R317. -/
  | setInvalidWindow (l : Layer) (c : Form)
  /-- GET_FRAME, OP 0x3A, class I, operands: out_ptr. R325. -/
  | getFrame (l : Layer) (c : Form)
  /-- SET_FRAME, OP 0x3B, class I, operands: frame_ptr. R326. -/
  | setFrame (l : Layer) (c : Form)
  /-- GET_FRAME_ADDRESS, OP 0x3C, class I, operands: none. R327. -/
  | getFrameAddress (l : Layer) (c : Form)
  /-- SET_FRAME_ADDRESS, OP 0x3D, class I, operands: addr. R328. -/
  | setFrameAddress (l : Layer) (c : Form)
  /-- GET_LAYER, OP 0x3E, class I, operands: out_ptr. R335. -/
  | getLayer (l : Layer) (c : Form)
  /-- SET_LAYER, OP 0x3F, class I, operands: spec_ptr. R336. -/
  | setLayer (l : Layer) (c : Form)
  -- helpers
  /-- BPP, OP 0x40, class pure, operands: fmt. R360. -/
  | bpp
  /-- TO_ARGB8888, OP 0x41, class pure, operands: color, fmt. R364. -/
  | toArgb8888
  /-- FROM_ARGB8888, OP 0x42, class pure, operands: color, fmt. R365. -/
  | fromArgb8888
  -- panel framer
  /-- PNL_OBJECT_INIT, OP 0x80, class init, operands: none. R382. -/
  | pnlObjectInit
  /-- PNL_START, OP 0x81, class api, operands: pcfg_ptr. R383. -/
  | pnlStart
  /-- PNL_STOP, OP 0x82, class api, operands: none. R384. -/
  | pnlStop
  /-- PNL_ACQUIRE_BUS, OP 0x83, class api, operands: none. R385. -/
  | pnlAcquireBus
  /-- PNL_RELEASE_BUS, OP 0x84, class api, operands: none. R386. -/
  | pnlReleaseBus
  /-- PNL_SELECT, OP 0x85, class api, operands: none. R387. -/
  | pnlSelect
  /-- PNL_UNSELECT, OP 0x86, class api, operands: none. R388. -/
  | pnlUnselect
  /-- PNL_WRITE_COMMAND, OP 0x87, class api, operands: byte. R389. -/
  | pnlWriteCommand
  /-- PNL_WRITE_BYTE, OP 0x88, class api, operands: byte. R390. -/
  | pnlWriteByte
  /-- PNL_READ_BYTE, OP 0x89, class api, operands: none. R391. -/
  | pnlReadByte
  /-- PNL_WRITE_CHUNK, OP 0x8A, class api, operands: buf, n. R392. -/
  | pnlWriteChunk
  /-- PNL_READ_CHUNK, OP 0x8B, class api, operands: buf, n. R393. -/
  | pnlReadChunk
deriving DecidableEq, Repr

end Sys2Proof
end

