-- ==== Sys2Proof/WellFormed.lean ====
section
/-! DEFINITION. Which instructions an agent may issue at all: the legality conditions of R146 that are not read from the
word's bits. (e) the two handler words are entered by interrupt delivery, never issued by software (D62); (f) the mutex
commands do not exist in a build without the optional mutex (D57). -/

namespace Sys2Proof

/-- R146 (e): software may not issue EVENT_IRQ or ERROR_IRQ. -/
def Instr.softwareMayIssue (i : Instr) : Bool := i != .eventIrq && i != .errorIrq

/-- R146 (f): without USE_MUTEX, ACQUIRE_BUS and RELEASE_BUS are absent. -/
def Instr.presentIn (useMutex : Bool) (i : Instr) : Bool := useMutex || (i != .acquireBus && i != .releaseBus)

/-- A legal instruction for an issuer (`software` or the interrupt hardware) and a build. -/
def Instr.wellFormed (software useMutex : Bool) (i : Instr) : Bool :=
  (!software || i.softwareMayIssue) && i.presentIn useMutex

end Sys2Proof
end

