-- ==== Sys2Proof/Decode.lean ====
section
/-! DEFINITION. The command word CMD16 (R140): decoding, total on every 16-bit value and refusing by name (R146 (a) to
(d), R147), and the encoder, both written from the opcode map of R145. R146 (e) and (f) depend on who issues the word and
on the build: they are `Instr.wellFormed`, which the decode micro-step of R154 tests. -/

namespace Sys2Proof

/-- Why a 16-bit value selects no row (R146). -/
inductive DecodeError where
  /-- (a) a bit of [15:10] is 1. -/
  | reservedBits
  /-- (b) OP is not in R145. -/
  | unknownOp
  /-- (c) L = 1 and OP is not a per-layer operation. -/
  | layerBit
  /-- (d) C = 1 and the C column does not list 1. -/
  | formBit
deriving DecidableEq, Repr

/-- What decoding answers. -/
inductive Decoded where
  | instr (i : Instr)
  | illegal (e : DecodeError)
deriving DecidableEq, Repr

/-- Field OP, bits 7:0 (R140). -/
def opField (w : CmdWord) : Nat := (w.extractLsb' 0 8).toNat

/-- Field L, bit 8 (R140). -/
def layerBit (w : CmdWord) : Bool := w.getLsbD 8

/-- Field C, bit 9 (R140). -/
def formBit (w : CmdWord) : Bool := w.getLsbD 9

/-- Bits 15:10, reserved (R140). -/
def reservedField (w : CmdWord) : BitVec 6 := w.extractLsb' 10 6

/-- L = 0 is layer 1, L = 1 is layer 2 (R141). -/
def layerOf (b : Bool) : Layer := if b then .l2 else .l1

/-- C = 0 is the api form, C = 1 the locked form (R142). -/
def formOf (b : Bool) : Form := if b then .locked else .api

/-- A row of R145 by which of L and C may be 1. -/
inductive OpRow where
  /-- L and C must be 0. -/
  | plain (i : Instr)
  /-- C may be 1. -/
  | formed (f : Form → Instr)
  /-- L and C may be 1. -/
  | layered (f : Layer → Form → Instr)

/-- OP 0x00 to 0x09 of R145. -/
def opsLifecycle : List (Nat × OpRow) :=
  [(0x00, .plain .init),
   (0x01, .formed .start),
   (0x02, .formed .stop),
   (0x03, .formed .isReloading),
   (0x04, .formed .startReload),
   (0x05, .formed .reloadWait),
   (0x06, .plain .acquireBus),
   (0x07, .plain .releaseBus),
   (0x08, .plain .eventIrq),
   (0x09, .plain .errorIrq)]

/-- OP 0x10 to 0x16 of R145. -/
def opsGlobal : List (Nat × OpRow) :=
  [(0x10, .formed .getGlobalFlags),
   (0x11, .formed .setGlobalFlags),
   (0x12, .formed .getClearColor),
   (0x13, .formed .setClearColor),
   (0x14, .formed .getLinePos),
   (0x15, .formed .setLinePos),
   (0x16, .formed .getCurrentPos)]

/-- OP 0x20 to 0x31 of R145. -/
def opsLayerA : List (Nat × OpRow) :=
  [(0x20, .layered .getEnableFlags),
   (0x21, .layered .setEnableFlags),
   (0x22, .layered .isLayerEnabled),
   (0x23, .layered .enableLayer),
   (0x24, .layered .disableLayer),
   (0x25, .layered .getPixelFormat),
   (0x26, .layered .setPixelFormat),
   (0x27, .layered .getKeyColor),
   (0x28, .layered .setKeyColor),
   (0x29, .layered .isKeyingEnabled),
   (0x2A, .layered .enableKeying),
   (0x2B, .layered .disableKeying),
   (0x2C, .layered .getConstAlpha),
   (0x2D, .layered .setConstAlpha),
   (0x2E, .layered .getDefaultColor),
   (0x2F, .layered .setDefaultColor),
   (0x30, .layered .getBlending),
   (0x31, .layered .setBlending)]

/-- OP 0x32 to 0x3F of R145. -/
def opsLayerB : List (Nat × OpRow) :=
  [(0x32, .layered .setPaletteEntry),
   (0x33, .layered .setPalette),
   (0x34, .layered .isPaletteEnabled),
   (0x35, .layered .enablePalette),
   (0x36, .layered .disablePalette),
   (0x37, .layered .getWindow),
   (0x38, .layered .setWindow),
   (0x39, .layered .setInvalidWindow),
   (0x3A, .layered .getFrame),
   (0x3B, .layered .setFrame),
   (0x3C, .layered .getFrameAddress),
   (0x3D, .layered .setFrameAddress),
   (0x3E, .layered .getLayer),
   (0x3F, .layered .setLayer)]

/-- OP 0x40 to 0x42 of R145. -/
def opsHelper : List (Nat × OpRow) :=
  [(0x40, .plain .bpp),
   (0x41, .plain .toArgb8888),
   (0x42, .plain .fromArgb8888)]

/-- OP 0x80 to 0x8B of R145. -/
def opsPanel : List (Nat × OpRow) :=
  [(0x80, .plain .pnlObjectInit),
   (0x81, .plain .pnlStart),
   (0x82, .plain .pnlStop),
   (0x83, .plain .pnlAcquireBus),
   (0x84, .plain .pnlReleaseBus),
   (0x85, .plain .pnlSelect),
   (0x86, .plain .pnlUnselect),
   (0x87, .plain .pnlWriteCommand),
   (0x88, .plain .pnlWriteByte),
   (0x89, .plain .pnlReadByte),
   (0x8A, .plain .pnlWriteChunk),
   (0x8B, .plain .pnlReadChunk)]

/-- The opcode map (R144, R145). Every other OP is reserved (R147). -/
def opTable : List (Nat × OpRow) := opsLifecycle ++ opsGlobal ++ opsLayerA ++ opsLayerB ++ opsHelper ++ opsPanel

/-- Find an OP in a list of rows. -/
def findOp (op : Nat) : List (Nat × OpRow) → Option OpRow
  | [] => none
  | (n, r) :: rest => if n = op then some r else findOp op rest

/-- Read L and C into the row's instruction; a bit the row does not admit is illegal (R146 (c), (d)). -/
def applyRow (l c : Bool) : OpRow → Decoded
  | .plain i => if l then .illegal .layerBit else if c then .illegal .formBit else .instr i
  | .formed f => if l then .illegal .layerBit else .instr (f (formOf c))
  | .layered f => .instr (f (layerOf l) (formOf c))

/-- Decode a command word. Total: a row with its L and C, or illegal (R146). -/
def decode (w : CmdWord) : Decoded :=
  if reservedField w = 0 then
    match findOp (opField w) opTable with
    | some r => applyRow (layerBit w) (formBit w) r
    | none => .illegal .unknownOp
  else .illegal .reservedBits

/-- The instruction, where there is one. -/
def Decoded.toOption : Decoded → Option Instr
  | .instr i => some i
  | .illegal _ => none

/-- The L bit of a layer (R141). -/
def Layer.bit : Layer → Bool
  | .l1 => false
  | .l2 => true

/-- The C bit of a form (R142). -/
def Form.bit : Form → Bool
  | .api => false
  | .locked => true

/-- A command word from its fields (R140): OP in 7:0, L in 8, C in 9, zero above. -/
def cmdWord (op : Byte) (l c : Bool) : CmdWord :=
  op.zeroExtend 16 ||| ((BitVec.ofBool l).zeroExtend 16 <<< 8) ||| ((BitVec.ofBool c).zeroExtend 16 <<< 9)

/-- The encoder: the one word that selects an instruction (R145, R152). -/
def encode : Instr → CmdWord
  | .init => cmdWord 0x00 false false
  | .start c => cmdWord 0x01 false c.bit
  | .stop c => cmdWord 0x02 false c.bit
  | .isReloading c => cmdWord 0x03 false c.bit
  | .startReload c => cmdWord 0x04 false c.bit
  | .reloadWait c => cmdWord 0x05 false c.bit
  | .acquireBus => cmdWord 0x06 false false
  | .releaseBus => cmdWord 0x07 false false
  | .eventIrq => cmdWord 0x08 false false
  | .errorIrq => cmdWord 0x09 false false
  | .getGlobalFlags c => cmdWord 0x10 false c.bit
  | .setGlobalFlags c => cmdWord 0x11 false c.bit
  | .getClearColor c => cmdWord 0x12 false c.bit
  | .setClearColor c => cmdWord 0x13 false c.bit
  | .getLinePos c => cmdWord 0x14 false c.bit
  | .setLinePos c => cmdWord 0x15 false c.bit
  | .getCurrentPos c => cmdWord 0x16 false c.bit
  | .getEnableFlags l c => cmdWord 0x20 l.bit c.bit
  | .setEnableFlags l c => cmdWord 0x21 l.bit c.bit
  | .isLayerEnabled l c => cmdWord 0x22 l.bit c.bit
  | .enableLayer l c => cmdWord 0x23 l.bit c.bit
  | .disableLayer l c => cmdWord 0x24 l.bit c.bit
  | .getPixelFormat l c => cmdWord 0x25 l.bit c.bit
  | .setPixelFormat l c => cmdWord 0x26 l.bit c.bit
  | .getKeyColor l c => cmdWord 0x27 l.bit c.bit
  | .setKeyColor l c => cmdWord 0x28 l.bit c.bit
  | .isKeyingEnabled l c => cmdWord 0x29 l.bit c.bit
  | .enableKeying l c => cmdWord 0x2A l.bit c.bit
  | .disableKeying l c => cmdWord 0x2B l.bit c.bit
  | .getConstAlpha l c => cmdWord 0x2C l.bit c.bit
  | .setConstAlpha l c => cmdWord 0x2D l.bit c.bit
  | .getDefaultColor l c => cmdWord 0x2E l.bit c.bit
  | .setDefaultColor l c => cmdWord 0x2F l.bit c.bit
  | .getBlending l c => cmdWord 0x30 l.bit c.bit
  | .setBlending l c => cmdWord 0x31 l.bit c.bit
  | .setPaletteEntry l c => cmdWord 0x32 l.bit c.bit
  | .setPalette l c => cmdWord 0x33 l.bit c.bit
  | .isPaletteEnabled l c => cmdWord 0x34 l.bit c.bit
  | .enablePalette l c => cmdWord 0x35 l.bit c.bit
  | .disablePalette l c => cmdWord 0x36 l.bit c.bit
  | .getWindow l c => cmdWord 0x37 l.bit c.bit
  | .setWindow l c => cmdWord 0x38 l.bit c.bit
  | .setInvalidWindow l c => cmdWord 0x39 l.bit c.bit
  | .getFrame l c => cmdWord 0x3A l.bit c.bit
  | .setFrame l c => cmdWord 0x3B l.bit c.bit
  | .getFrameAddress l c => cmdWord 0x3C l.bit c.bit
  | .setFrameAddress l c => cmdWord 0x3D l.bit c.bit
  | .getLayer l c => cmdWord 0x3E l.bit c.bit
  | .setLayer l c => cmdWord 0x3F l.bit c.bit
  | .bpp => cmdWord 0x40 false false
  | .toArgb8888 => cmdWord 0x41 false false
  | .fromArgb8888 => cmdWord 0x42 false false
  | .pnlObjectInit => cmdWord 0x80 false false
  | .pnlStart => cmdWord 0x81 false false
  | .pnlStop => cmdWord 0x82 false false
  | .pnlAcquireBus => cmdWord 0x83 false false
  | .pnlReleaseBus => cmdWord 0x84 false false
  | .pnlSelect => cmdWord 0x85 false false
  | .pnlUnselect => cmdWord 0x86 false false
  | .pnlWriteCommand => cmdWord 0x87 false false
  | .pnlWriteByte => cmdWord 0x88 false false
  | .pnlReadByte => cmdWord 0x89 false false
  | .pnlWriteChunk => cmdWord 0x8A false false
  | .pnlReadChunk => cmdWord 0x8B false false

/-- The instruction the decoder reads from a table word. Every row is one 16-bit word (R140, R151), so a value that needs
more bits selects nothing. -/
def decodeTableWord (_nbits w : Nat) : Option Instr :=
  if w < 65536 then (decode (BitVec.ofNat 16 w)).toOption else none

end Sys2Proof
end

