-- ==== Sys2Proof/Machine/Memory.lean ====
section
/-! DEFINITION. Host memory (R100 b): bytes at 32-bit addresses, held as a list of (address, byte) pairs in one canonical
form. An unlisted address reads as 0 (DESIGN CHOICE, log 10). Multi-byte fields are little-endian (R102). -/

namespace Sys2Proof.Machine

/-- Host memory as a list of cells. -/
abbrev Mem := List Host.Cell

/-- What an unlisted address reads as (DESIGN CHOICE, log 10). -/
def Mem.unlisted : Byte := 0

/-- Read one byte. -/
def Mem.get : Mem → Nat → Byte
  | [], _ => Mem.unlisted
  | (k, b) :: rest, a => if k = a then b else Mem.get rest a

/-- Write one byte and keep the canonical form: addresses rise strictly, and no entry equals what an unlisted address
reads as. -/
def Mem.set : Mem → Nat → Byte → Mem
  | [], a, b => if b = Mem.unlisted then [] else [(a, b)]
  | (k, c) :: rest, a, b =>
    if a < k then (if b = Mem.unlisted then (k, c) :: rest else (a, b) :: (k, c) :: rest)
    else if a = k then (if b = Mem.unlisted then rest else (a, b) :: rest)
    else (k, c) :: Mem.set rest a b

/-- Every address is at least `lo`, addresses rise strictly and stay below 2^32, and no byte is the unlisted one. -/
def Mem.wfFrom : Nat → Mem → Bool
  | _, [] => true
  | lo, (k, b) :: rest => decide (lo ≤ k) && decide (k < 4294967296) && (b != Mem.unlisted) && Mem.wfFrom (k + 1) rest

/-- The canonical form. -/
def Mem.wf (m : Mem) : Bool := Mem.wfFrom 0 m

/-- The byte at a 32-bit address. -/
def Mem.byteAt (m : Mem) (a : Word) : Byte := m.get a.toNat

/-- The `n` bytes from `a` upward as a little-endian number (R102); the address wraps modulo 2^32 (R12). -/
def Mem.readLe (m : Mem) (a : Word) : Nat → Word
  | 0 => 0
  | n + 1 => (m.byteAt a).zeroExtend 32 ||| (Mem.readLe m (a + 1) n <<< 8)

/-- Store the low `n` bytes of `v` from `a` upward, little-endian (R102). -/
def Mem.writeLe (m : Mem) (a : Word) : Nat → Word → Mem
  | 0, _ => m
  | n + 1, v => Mem.writeLe (m.set a.toNat (v.truncate 8)) (a + 1) n (v >>> 8)

/-- `a` is one of the `n` bytes from `base` upward. -/
def inBytes (base : Word) (n : Nat) (a : Word) : Bool := decide ((a - base).toNat < n)

/-- An address that is a multiple of 4 (R105). -/
def aligned4 (a : Word) : Bool := a &&& 3 == 0

end Sys2Proof.Machine
end

