-- ==== Sys2Proof/Machine/State.lean ====
section
/-! DEFINITION. The architectural state of LTDC-SEQ as plain data (10_state.md), the reasons a step can stop, and the
state at power-on (R83, R500). The agents of R9 are all in it: the client threads with the commands they issue, the
interrupt agent's handler activations, and the schedule that says which agent moves next (log 2). -/

namespace Sys2Proof.Machine

/-- drv_state (R32). -/
inductive DrvState where
  | uninit
  | stop
  | ready
  | active
deriving DecidableEq, Repr

/-- pnl_state (R77); `absent` is the spec's NONE, the state before PNL_OBJECT_INIT. -/
inductive PnlState where
  | absent
  | stop
  | ready
  | active
deriving DecidableEq, Repr

/-- The two interrupt vectors (R457). -/
inductive Vec where
  | event
  | error
deriving DecidableEq, Repr

/-- An agent that runs commands: a client thread or a handler activation (R9). -/
inductive Agent where
  | thread (t : Nat)
  | irq (v : Vec)
deriving DecidableEq, Repr

/-- The context of the issuing agent (R36, R467). -/
inductive Ctx where
  | thread
  | locked
  | isr
deriving DecidableEq, Repr

/-- The message a woken thread receives (R34, D60): the one abstract value MSG_OK. -/
inductive Msg where
  | ok
deriving DecidableEq, Repr

/-- Fault codes (R450). -/
inductive FaultCode where
  | state
  | range
  | null
  | window
  | geometry
  | layerEnabled
  | secondWaiter
  | context
  | illegalCommand
  | isrState
  | nullCallback
  | notOwner
  | crash
deriving DecidableEq, Repr

/-- The operand record: the command's `u32` fields in the order R145 lists them, `x` then `y` (R30, R148, log 12). -/
structure Operands where
  x : Word
  y : Word
deriving DecidableEq, Repr

/-- One issued command: its word and its operand record (R140). -/
structure Issue where
  word : CmdWord
  ops : Operands
deriving DecidableEq, Repr

/-- What a held agent waits for (R18 `hold until P`). -/
inductive Wait where
  /-- `lock()`: until lock_holder = none (R36). -/
  | lock
  /-- The second micro-step of a yield: until lock_holder = none (R206). -/
  | relock
  /-- The second micro-step of a sleep: until wake_msg is set and lock_holder = none (R206). -/
  | wake
  /-- ACQUIRE_BUS: until ltdc_mutex_owner = none (R210). -/
  | ltdcBus
  /-- PNL_ACQUIRE_BUS: until pnl_mutex_owner = none (R385). -/
  | pnlBus
deriving DecidableEq, Repr

/-- A progress cell prog[a] = (cmd, step) (R31), with the operand record of the command. `step` is the index of the next
micro-step in the command's pseudocode as it is written: one more after each micro-step, and a jump where the pseudocode
branches or loops. `log` is the model's own: what the pseudocode's local variables hold, the newest first (log 3). -/
structure Cell where
  word : CmdWord
  ops : Operands
  step : Nat
  log : List Word
  wait : Option Wait
deriving DecidableEq, Repr

/-- One thing a thread does next: issue a command, or open or close its own critical section (R36). -/
inductive Item where
  | cmd (i : Issue)
  | lock
  | unlock
deriving DecidableEq, Repr

/-- A result record's contents (R30, R145). -/
inductive ResultVal where
  | unit
  | word (v : Word)
  /-- GET_CURRENT_POS (R266). -/
  | pos (x y : Word)
  /-- RELOAD_WAIT (R206). -/
  | msg (m : Msg)
deriving DecidableEq, Repr

/-- A returned result, with the command word that returned it (R30, R531). -/
structure Result where
  cmd : CmdWord
  val : ResultVal
deriving DecidableEq, Repr

/-- One client thread: its context (`locked` is THREAD_LOCKED), its wake message, its progress cell (`none` is IDLE), the
commands it still has to issue, and the results returned to it (R31, R34, R36, R470). -/
structure Thread where
  locked : Bool
  wakeMsg : Option Msg
  prog : Option Cell
  program : List Item
  results : List Result
deriving DecidableEq, Repr

/-- One activation of the interrupt agent (R459): its vector, its progress cell, whether it is inside its critical
section (R460), what is left of the callback body it runs (R465), and the progress cell of that body's command. -/
structure Activation where
  vec : Vec
  cell : Cell
  crit : Bool
  body : List Issue
  bodyCell : Option Cell
deriving DecidableEq, Repr

/-- A step of the raster agent (R420): commit (R421), line event (R423), error events (R424). -/
inductive RasterAct where
  | commit
  | line
  | underrun
  | transferError
deriving DecidableEq, Repr

/-- One entry of the schedule (log 2): the current agent takes its next micro-step; the turn ends here, so that a slot
`go` before it is one micro-step of R8 by itself (log 1); a raster step; thread `t` becomes the current thread; a vector is
delivered. An entry that the rules do not enable is passed over. -/
inductive Slot where
  | go
  | pause
  | raster (a : RasterAct)
  | switch (t : Nat)
  | deliver (v : Vec)
deriving DecidableEq, Repr

/-- active_window (R33). -/
structure ActiveWindow where
  hstart : Half
  hstop : Half
  vstart : Half
  vstop : Half
deriving DecidableEq, Repr

/-- The shadowed registers of one layer block (R40, R53 to R63). -/
structure LayerRegs where
  cr : Word
  whpcr : Word
  wvpcr : Word
  ckcr : Word
  pfcr : Word
  cacr : Word
  dccr : Word
  bfcr : Word
  cfbar : Word
  cfblr : Word
  cfblnr : Word
deriving DecidableEq, Repr

/-- The shadowed registers (R40, R41 to R45, R51): State holds a shadow copy and an active copy (R67). -/
structure RegFile where
  sscr : Word
  bpcr : Word
  awcr : Word
  twcr : Word
  gcr : Word
  bccr : Word
  l1 : LayerRegs
  l2 : LayerRegs
deriving DecidableEq, Repr

/-- The CLUT file of both layers, CLUT_LEN entries each (R65). -/
structure Clut where
  l1 : Vector Rgb Config.clutLen
  l2 : Vector Rgb Config.clutLen
deriving DecidableEq, Repr

/-- The fault mark (R38, R452): the code, the command word, the index of the micro-step that failed (R453), the agent, and
the info. The spec gives an info for F_ILLEGAL_COMMAND only (R451); for every other code the model records none (DESIGN
CHOICE, log 33). -/
structure FaultMark where
  code : FaultCode
  cmd : CmdWord
  step : Nat
  agent : Agent
  info : Option CmdWord
deriving DecidableEq, Repr

/-- The kinds of callback (R80). -/
inductive CbKind where
  | line
  | reload
  | underrun
  | terr
deriving DecidableEq, Repr

/-- One entry of the event history (R80). -/
inductive Event where
  | cb (k : CbKind)
  | wake (a : Agent) (m : Msg)
  | commit (bits : Word)
  | fault (c : FaultCode)
deriving DecidableEq, Repr

/-- cs_level (R78). -/
inductive CsLevel where
  | asserted
  | deasserted
  | unknown
deriving DecidableEq, Repr

/-- dcx_level (R78): `low` is 0, command; `high` is 1, data. -/
inductive DcxLevel where
  | low
  | high
  | unknown
deriving DecidableEq, Repr

/-- Direction of a byte on the SPI link (R79). -/
inductive Dir where
  | tx
  | rx
deriving DecidableEq, Repr

/-- One entry of the SPI wire log (R79). -/
structure WireEntry where
  dir : Dir
  dcx : DcxLevel
  cs : CsLevel
  byte : Byte
deriving DecidableEq, Repr

/-- pnl_cfg, the copied panel configuration (R77, R383). -/
structure PnlCfg where
  spi : Word
  dcx : Word
deriving DecidableEq, Repr

/-- The whole state. -/
structure State where
  /-- The build (R10); no step writes it. -/
  par : Params
  drvState : DrvState
  activeWindow : ActiveWindow
  /-- The wait slot (R34). An interrupt agent's command is in it only when CHECKS is false (R520 a, log 19). -/
  waiter : Option Agent
  /-- The borrowed configuration block's address; 0 is null (R35, R148). -/
  cfg : Word
  /-- The scheduler lock (R36). An interrupt agent's command holds it only when CHECKS is false (R520 a, log 19). -/
  lockHolder : Option Agent
  ltdcOwner : Option Agent
  fault : Option FaultMark
  nvicEv : Bool
  nvicEr : Bool
  shadow : RegFile
  active : RegFile
  srcr : Word
  ier : Word
  isr : Word
  lipcr : Word
  clutShadow : Clut
  clutActive : Clut
  pnlState : PnlState
  pnlCfg : Option PnlCfg
  pnlScratch : Byte
  pnlOwner : Option Agent
  cs : CsLevel
  dcx : DcxLevel
  wire : List WireEntry
  events : List Event
  threads : List Thread
  /-- The handler activations, the running one first (R459, R462). -/
  irq : List Activation
  /-- Results returned to the interrupt agent's callback commands. -/
  irqResults : List Result
  /-- wake_msg of the event vector's interrupt agent, which only CHECKS false writes (R206, R520 a, log 19). -/
  wakeEv : Option Msg
  /-- wake_msg of the error vector's interrupt agent (R206, R520 a, log 19). -/
  wakeEr : Option Msg
  /-- CB_BODY (R465): callback id and the commands its body issues. -/
  cbBodies : List (Word × List Issue)
  /-- Host memory (R100 b) in canonical form. -/
  mem : Mem
  /-- The model's own: how many free values have been drawn (log 8). -/
  draws : Nat
  /-- The model's own: the current thread (log 2). -/
  cur : Nat
  /-- The model's own: the schedule (log 2). -/
  sched : List Slot
deriving DecidableEq, Repr

/-- Why the machine stops without a next state. Every constructor is safe: no claim about a next state follows from it. -/
inductive Fault where
  /-- The fault mark is set: the run has ended in the fault state (R452, R531 a). Raised by `step`. Safe. -/
  | halted
  /-- No thread has a command left, nor a lock() or unlock() of its own (log 16), no handler runs or is deliverable, no commit
  is due (R531 b). Raised by `step`. Safe. -/
  | quiescent
  /-- A thread or a handler still has a command and no agent has a step (R531 c). An endless poll is none: its agent has steps
  (log 16). Raised by `step`. Safe. -/
  | hang
  /-- A descriptor, record or palette access at an address that is no multiple of 4: "not admitted", the agent is stuck
  (R105). Raised by every command that reads or writes such a record. Safe. -/
  | misaligned
  /-- With CHECKS false, an api form reached `lock()` from ISR or THREAD_LOCKED: stuck, "the run is not admitted" (R455).
  Raised by every api form. Safe. -/
  | lockNotAdmitted
deriving DecidableEq, Repr

/-- Why exec has no meaning for an instruction. -/
inductive Refusal where
  /-- The instruction has no meaning in the model yet. Raised by exec only; no arm raises it now. Safe. -/
  | notModelled (mnemonic : String)
deriving DecidableEq, Repr

/-- RESET_VALUES of one layer block (R83). -/
def LayerRegs.resetValues : LayerRegs where
  cr := 0
  whpcr := 0
  wvpcr := 0
  ckcr := 0
  pfcr := 0
  cacr := Config.resetCacr
  dccr := 0
  bfcr := Config.resetBfcr
  cfbar := 0
  cfblr := 0
  cfblnr := 0

/-- RESET_VALUES of the shadowed registers (R83). -/
def RegFile.resetValues : RegFile where
  sscr := 0
  bpcr := 0
  awcr := 0
  twcr := 0
  gcr := Config.ditherWidths
  bccr := 0
  l1 := .resetValues
  l2 := .resetValues

/-- The CLUT the model names at power-on, where the spec has a draw per entry: DESIGN CHOICE, log 6. -/
def Clut.zero : Clut where
  l1 := Vector.replicate Config.clutLen 0
  l2 := Vector.replicate Config.clutLen 0

/-- A thread in context THREAD with nothing to do (R83). -/
def Thread.idle : Thread where
  locked := false
  wakeMsg := none
  prog := none
  program := []
  results := []

/-- Power-on (R83, R500). Where the spec has a draw: registers take their RESET_VALUES entry (DESIGN CHOICE, log 5), the
other cells the value their log names (DESIGN CHOICE, log 4, 6, 7, 10). -/
def State.reset : State where
  par := .default
  drvState := .uninit
  activeWindow := ⟨0, 0, 0, 0⟩
  waiter := none
  cfg := 0
  lockHolder := none
  ltdcOwner := none
  fault := none
  nvicEv := false
  nvicEr := false
  shadow := .resetValues
  active := .resetValues
  srcr := 0
  ier := 0
  isr := 0
  lipcr := 0
  clutShadow := .zero
  clutActive := .zero
  pnlState := .absent
  pnlCfg := none
  pnlScratch := 0
  pnlOwner := none
  cs := .unknown
  dcx := .unknown
  wire := []
  events := []
  threads := [.idle]
  irq := []
  irqResults := []
  wakeEv := none
  wakeEr := none
  cbBodies := []
  mem := []
  draws := 0
  cur := 0
  sched := []

/-- The three outcomes of a step. -/
abbrev Out := Host.Outcome State Fault Refusal

end Sys2Proof.Machine
end

