-- ==== Sys2Proof/Machine/Regs.lean ====
section
/-! DEFINITION. The LTDC register file (R40 to R66): names, offsets, which bits software may write, and the two register
primitives RegRead and RegWrite (R15). -/

namespace Sys2Proof.Machine

/-- The registers of one layer block (R40). -/
inductive LReg where
  | cr
  | whpcr
  | wvpcr
  | ckcr
  | pfcr
  | cacr
  | dccr
  | bfcr
  | cfbar
  | cfblr
  | cfblnr
  | clutwr
deriving DecidableEq, Repr

/-- The registers of R40. -/
inductive Reg where
  | sscr
  | bpcr
  | awcr
  | twcr
  | gcr
  | srcr
  | bccr
  | ier
  | isr
  | icr
  | lipcr
  | cpsr
  | lay (l : Layer) (r : LReg)
deriving DecidableEq, Repr

/-- Offset of a layer register in layer 1's block (R40). -/
def LReg.offset : LReg → Nat
  | .cr => 0x84
  | .whpcr => 0x88
  | .wvpcr => 0x8C
  | .ckcr => 0x90
  | .pfcr => 0x94
  | .cacr => 0x98
  | .dccr => 0x9C
  | .bfcr => 0xA0
  | .cfbar => 0xAC
  | .cfblr => 0xB0
  | .cfblnr => 0xB4
  | .clutwr => 0xC4

/-- offset(REG) (R40): layer 2's block is layer 1's plus 0x80. -/
def Reg.offset : Reg → Nat
  | .sscr => 0x08
  | .bpcr => 0x0C
  | .awcr => 0x10
  | .twcr => 0x14
  | .gcr => 0x18
  | .srcr => 0x24
  | .bccr => 0x2C
  | .ier => 0x34
  | .isr => 0x38
  | .icr => 0x3C
  | .lipcr => 0x40
  | .cpsr => 0x44
  | .lay .l1 r => r.offset
  | .lay .l2 r => r.offset + 0x80

/-- The address of a register: LTDC_BASE + offset(REG) (R15, R100 a, R109). -/
def Reg.address (r : Reg) : Word := Config.ltdcBase + BitVec.ofNat 32 r.offset

/-- The writable bits of a timing register: h field at bit 16, v field at bit 0 (R41 to R44). -/
def hvMask : Word := (Config.mask Config.hbits <<< 16) ||| Config.mask Config.vbits

/-- The writable bits of LxWHPCR: stop at bit 16, start at bit 0 (R54). -/
def hhMask : Word := (Config.mask Config.hbits <<< 16) ||| Config.mask Config.hbits

/-- The writable bits of LxWVPCR: stop at bit 16, start at bit 0 (R55). -/
def vvMask : Word := (Config.mask Config.vbits <<< 16) ||| Config.mask Config.vbits

/-- The writable bits of LxCFBLR: pitch at bit 16, line length at bit 0 (R62). -/
def lengthMask : Word := (Config.mask Config.pitchBits <<< 16) ||| Config.mask Config.llbits

/-- GCR_CFG_MASK: every writable bit of GCR but LTDCEN (R45). -/
def gcrCfgMask : Word := 0xF0010000#32

/-- writable_mask(GCR) (R45). -/
def gcrMask : Word := 0xF0010001#32

/-- LAYER_FLAG_MASK: LEN, COLKEN, CLUTEN (R53). -/
def layerFlagMask : Word := 0x00000013#32

/-- The bits of a layer register that a write stores (R53 to R64); CLUTWR stores nothing itself. -/
def LReg.writableMask : LReg → Word
  | .cr => layerFlagMask
  | .whpcr => hhMask
  | .wvpcr => vvMask
  | .ckcr => 0x00FFFFFF#32
  | .pfcr => 0x00000007#32
  | .cacr => 0x000000FF#32
  | .dccr => 0xFFFFFFFF#32
  | .bfcr => 0x00000707#32
  | .cfbar => 0xFFFFFFFF#32
  | .cfblr => lengthMask
  | .cfblnr => Config.mask Config.vbits
  | .clutwr => 0

/-- writable_mask(REG) (R40): the union of the RW fields of R41 to R64. -/
def Reg.writableMask : Reg → Word
  | .sscr => hvMask
  | .bpcr => hvMask
  | .awcr => hvMask
  | .twcr => hvMask
  | .gcr => gcrMask
  | .srcr => 0x3
  | .bccr => 0x00FFFFFF#32
  | .ier => 0xF
  | .isr => 0
  | .icr => 0
  | .lipcr => Config.mask Config.vbits
  | .cpsr => 0
  | .lay _ r => r.writableMask

/-- The read-only fields of GCR: DBW 6:4, DGW 10:8, DRW 14:12 (R45). -/
def gcrRoMask : Word := 0x00007770#32

/-- The value a stored register holds after a write: the writable bits of `v`, the read-only bits `ro` as they were,
zero in every reserved bit (R15, R40). -/
def stored (ro w old v : Word) : Word := (old &&& ro) ||| (v &&& w)

/-- Read a layer register's cell; CLUTWR is write-only and reads 0 (R64). -/
def LayerRegs.get (f : LayerRegs) : LReg → Word
  | .cr => f.cr
  | .whpcr => f.whpcr
  | .wvpcr => f.wvpcr
  | .ckcr => f.ckcr
  | .pfcr => f.pfcr
  | .cacr => f.cacr
  | .dccr => f.dccr
  | .bfcr => f.bfcr
  | .cfbar => f.cfbar
  | .cfblr => f.cfblr
  | .cfblnr => f.cfblnr
  | .clutwr => 0

/-- Put a value into a layer register's cell; CLUTWR has none. -/
def LayerRegs.put (f : LayerRegs) (v : Word) : LReg → LayerRegs
  | .cr => { f with cr := v }
  | .whpcr => { f with whpcr := v }
  | .wvpcr => { f with wvpcr := v }
  | .ckcr => { f with ckcr := v }
  | .pfcr => { f with pfcr := v }
  | .cacr => { f with cacr := v }
  | .dccr => { f with dccr := v }
  | .bfcr => { f with bfcr := v }
  | .cfbar => { f with cfbar := v }
  | .cfblr => { f with cfblr := v }
  | .cfblnr => { f with cfblnr := v }
  | .clutwr => f

/-- The block of layer `l` (R13). -/
def RegFile.layer (f : RegFile) : Layer → LayerRegs
  | .l1 => f.l1
  | .l2 => f.l2

/-- Replace the block of layer `l`. -/
def RegFile.setLayer (f : RegFile) (l : Layer) (b : LayerRegs) : RegFile :=
  match l with
  | .l1 => { f with l1 := b }
  | .l2 => { f with l2 := b }

/-- Store the writable bits of `v` in register `q` of layer `l` (R15). -/
def RegFile.writeLayer (f : RegFile) (l : Layer) (q : LReg) (v : Word) : RegFile :=
  f.setLayer l ((f.layer l).put (stored 0 q.writableMask ((f.layer l).get q) v) q)

/-- The palette of layer `l` (R65). -/
def Clut.layer (c : Clut) : Layer → Vector Rgb Config.clutLen
  | .l1 => c.l1
  | .l2 => c.l2

/-- Replace the palette of layer `l`. -/
def Clut.setLayer (c : Clut) (l : Layer) (p : Vector Rgb Config.clutLen) : Clut :=
  match l with
  | .l1 => { c with l1 := p }
  | .l2 => { c with l2 := p }

/-- The slot a CLUTWR word names, bits 31:24 (R64). -/
def clutSlot (v : Word) : Nat := (v.extractLsb' 24 8).toNat

/-- The colour a CLUTWR word holds, bits 23:0 (R64). -/
def clutColour (v : Word) : Rgb := v.extractLsb' 0 24

/-- A CLUTWR write: `clut_shadow[Lx][v[31:24]] ← v[23:0]` (R64). -/
def State.writeClut (s : State) (l : Layer) (v : Word) : State :=
  { s with clutShadow := s.clutShadow.setLayer l ((s.clutShadow.layer l).setIfInBounds (clutSlot v) (clutColour v)) }

/-- The value of RegRead (R15): the shadow of a read/write register, the current ISR and SRCR, 0 for a write-only
register, a fresh draw for CPSR (R425). -/
def State.regRead (s : State) : Reg → Word
  | .sscr => s.shadow.sscr
  | .bpcr => s.shadow.bpcr
  | .awcr => s.shadow.awcr
  | .twcr => s.shadow.twcr
  | .gcr => s.shadow.gcr
  | .srcr => s.srcr
  | .bccr => s.shadow.bccr
  | .ier => s.ier
  | .isr => s.isr
  | .icr => 0
  | .lipcr => s.lipcr
  | .cpsr => Config.cpsrDraw s.draws
  | .lay l r => (s.shadow.layer l).get r

/-- What a read leaves: nothing changes (R107) but the count of draws, for CPSR. -/
def State.afterRead (s : State) : Reg → State
  | .cpsr => { s with draws := s.draws + 1 }
  | _ => s

/-- RegWrite of a layer register (R15): CLUTWR writes one palette entry (R64), the others their shadow cell. -/
def State.writeLayerReg (s : State) (l : Layer) (q : LReg) (v : Word) : State :=
  if q = .clutwr then s.writeClut l v else { s with shadow := s.shadow.writeLayer l q v }

/-- RegWrite (R15): SRCR ORs its 1 bits in (R46), ICR clears ISR bits (R49), CLUTWR writes one palette entry (R64), the
read-only ISR and CPSR ignore it, and every other register stores its writable bits into its shadow cell. -/
def State.regWrite (s : State) (r : Reg) (v : Word) : State :=
  match r with
  | .sscr => { s with shadow := { s.shadow with sscr := stored 0 hvMask s.shadow.sscr v } }
  | .bpcr => { s with shadow := { s.shadow with bpcr := stored 0 hvMask s.shadow.bpcr v } }
  | .awcr => { s with shadow := { s.shadow with awcr := stored 0 hvMask s.shadow.awcr v } }
  | .twcr => { s with shadow := { s.shadow with twcr := stored 0 hvMask s.shadow.twcr v } }
  | .gcr => { s with shadow := { s.shadow with gcr := stored gcrRoMask Reg.gcr.writableMask s.shadow.gcr v } }
  | .srcr => { s with srcr := s.srcr ||| (v &&& 0x3) }
  | .bccr => { s with shadow := { s.shadow with bccr := stored 0 Reg.bccr.writableMask s.shadow.bccr v } }
  | .ier => { s with ier := stored 0 Reg.ier.writableMask s.ier v }
  | .isr => s
  | .icr => { s with isr := s.isr &&& ~~~(v &&& 0xF) }
  | .lipcr => { s with lipcr := stored 0 Reg.lipcr.writableMask s.lipcr v }
  | .cpsr => s
  | .lay l q => s.writeLayerReg l q v

end Sys2Proof.Machine
end

