-- ==== Sys2Proof/Machine/Operands.lean ====
section
/-! DEFINITION. Operand forms: the width each command takes of an operand field (R148), the bounds test of R208, the
register packing and unpacking functions (R149, R150), and the truncations (R12). -/

namespace Sys2Proof.Machine

/-- `trunc_N(v) = v mod 2^N` (R12). -/
def trunc (n : Nat) (v : Word) : Word := v &&& Config.mask n

/-- The field of `n` bits of `v` from bit `lo` (R11). -/
def field (v : Word) (lo n : Nat) : Word := (v >>> lo) &&& Config.mask n

/-- `in(x, lo, hi)`: lo ≤ x ≤ hi on `u32` (R208). -/
def inRange (x lo hi : Word) : Bool := decide (lo ≤ x) && decide (x ≤ hi)

/-- Operand `immediate`: true iff nonzero (R148). -/
def isTrue (x : Word) : Bool := x != 0

/-- Operands `alpha` and `byte`: the low 8 bits (R148). -/
def low8 (x : Word) : Byte := x.truncate 8

/-- A `bool` result: 1 for true, 0 for false (R148). -/
def boolWord (b : Bool) : Word := if b then 1 else 0

/-- The pixel-format bounds test, `in(fmt, PIXFMT_MIN, PIXFMT_MAX)` (R76). -/
def fmtOk (fmt : Word) : Bool := inRange fmt Config.limits.pixfmtMin Config.limits.pixfmtMax

/-- `pack_hv` for SSCR, BPCR, AWCR, TWCR (R149). -/
def packHv (h v : Word) : Word := (trunc Config.hbits h <<< 16) ||| trunc Config.vbits v

/-- `pack_wh` for LxWHPCR (R149). -/
def packWh (start stop : Word) : Word := (trunc Config.hbits stop <<< 16) ||| trunc Config.hbits start

/-- `pack_wv` for LxWVPCR (R149). -/
def packWv (start stop : Word) : Word := (trunc Config.vbits stop <<< 16) ||| trunc Config.vbits start

/-- `pack_cfblr` for LxCFBLR: the driver writes length + 3 (R149, C1). -/
def packCfblr (pitch linesize : Word) : Word :=
  (trunc Config.pitchBits pitch <<< 16) ||| trunc Config.llbits (linesize + 3)

/-- `pack_clut` for LxCLUTWR: the slot in the high byte (R149). -/
def packClut (i rgb : Word) : Word := (trunc 8 i <<< 24) ||| (rgb &&& 0x00FFFFFF#32)

/-- `rgb24` for CKCR and BCCR (R149). -/
def rgb24 (c : Word) : Word := c &&& 0x00FFFFFF#32

/-- `cfbp`: the pitch (R150). -/
def cfbp (r : Word) : Word := field r 16 Config.pitchBits

/-- `cfbll`: line length + 3 (R150). -/
def cfbll (r : Word) : Word := field r 0 Config.llbits

/-- `line_bytes`: the line length in bytes, wrapping (R150). -/
def lineBytes (r : Word) : Word := cfbll r - 3

/-- `whst` (R150). -/
def whst (r : Word) : Word := field r 0 Config.hbits

/-- `whsp` (R150). -/
def whsp (r : Word) : Word := field r 16 Config.hbits

/-- `wvst` (R150). -/
def wvst (r : Word) : Word := field r 0 Config.vbits

/-- `wvsp` (R150). -/
def wvsp (r : Word) : Word := field r 16 Config.vbits

/-- A Window descriptor as read: each half zero-extended (R72, R314). -/
structure WindowD where
  hstart : Word
  hstop : Word
  vstart : Word
  vstop : Word
deriving DecidableEq, Repr

/-- A Frame descriptor as read (R71, R314). -/
structure FrameD where
  addr : Word
  width : Word
  height : Word
  pitch : Word
  fmt : Word
deriving DecidableEq, Repr

/-- A LayerSpec as read (R73, R314). -/
structure LayerSpecD where
  frame : FrameD
  window : WindowD
  defColor : Word
  keyColor : Word
  constAlpha : Word
  palLen : Word
  palPtr : Word
  blending : Word
  flags : Word
deriving DecidableEq, Repr

/-- A Config as read (R74, R207). -/
structure ConfigD where
  screenWidth : Word
  screenHeight : Word
  hsyncWidth : Word
  vsyncHeight : Word
  hbpWidth : Word
  vbpHeight : Word
  hfpWidth : Word
  vfpHeight : Word
  flags : Word
  clearColor : Word
  bgSpec : Word
  fgSpec : Word
  lineCb : Word
  rrCb : Word
  fuCb : Word
  terrCb : Word
deriving DecidableEq, Repr

/-- BLEND_FIX1_FIX2 (R70). -/
def blendFix1Fix2 : Word := 0x00000405#32

/-- BLEND_FIX1_MOD2 (R70). -/
def blendFix1Mod2 : Word := 0x00000407#32

/-- BLEND_MOD1_FIX2 (R70). -/
def blendMod1Fix2 : Word := 0x00000605#32

/-- BLEND_MOD1_MOD2 (R70). -/
def blendMod1Mod2 : Word := 0x00000607#32

/-- The invalid window, relative (0, 0, 0, 0) (R75, D16). -/
def invalidWindow : WindowD := ⟨0, 0, 0, 0⟩

/-- The invalid frame: 1×1, L-8, null address, pitch 1 (R75, D16). -/
def invalidFrame : FrameD := ⟨0, 1, 1, 1, 5⟩

/-- The default layer specification (R75, D17). -/
def defaultSpec : LayerSpecD where
  frame := invalidFrame
  window := invalidWindow
  defColor := 0
  keyColor := 0
  constAlpha := 0
  palLen := 0
  palPtr := 0
  blending := blendFix1Fix2
  flags := 0

/-- The screen-relative start and stop columns of the active window, zero-extended (R33, R316). -/
def ActiveWindow.hs (a : ActiveWindow) : Word := a.hstart.zeroExtend 32

/-- Last active column (R33). -/
def ActiveWindow.he (a : ActiveWindow) : Word := a.hstop.zeroExtend 32

/-- First active line (R33). -/
def ActiveWindow.vs (a : ActiveWindow) : Word := a.vstart.zeroExtend 32

/-- Last active line (R33). -/
def ActiveWindow.ve (a : ActiveWindow) : Word := a.vstop.zeroExtend 32

end Sys2Proof.Machine
end

