-- ==== Sys2Proof/Machine/Flags.lean ====
section
/-! DEFINITION. The status flags of R82 and what is computed from them: the request bits, the interrupt request lines
(R426), pending vectors (R39, R458), the interrupt-enable mask of START (R209), and the codes of states and faults. -/

namespace Sys2Proof.Machine

/-- SRCR.IMR (R46). -/
def srcrImr : Word := 0x1

/-- SRCR.VBR (R46). -/
def srcrVbr : Word := 0x2

/-- GCR.LTDCEN (R45). -/
def gcrLtdcen : Word := 0x1

/-- ISR.LIF, IER.LIE, ICR.CLIF (R47 to R49). -/
def flagLine : Word := 0x1

/-- ISR.FUIF and its enable and clear bits. -/
def flagUnderrun : Word := 0x2

/-- ISR.TERRIF and its enable and clear bits. -/
def flagTerr : Word := 0x4

/-- ISR.RRIF and its enable and clear bits. -/
def flagReload : Word := 0x8

/-- LxCR.LEN (R53). -/
def crLen : Word := 0x1

/-- LxCR.COLKEN (R53). -/
def crColken : Word := 0x2

/-- LxCR.CLUTEN (R53). -/
def crCluten : Word := 0x10

/-- A bit, or one of several bits, is set. -/
def hasBits (v m : Word) : Bool := v &&& m != 0

/-- active(GCR).LTDCEN = 1: the controller is on (R421 to R424). -/
def State.rasterOn (s : State) : Bool := hasBits s.active.gcr gcrLtdcen

/-- ev_req (R426): LIF or RRIF, enabled. -/
def State.evReq (s : State) : Bool := hasBits (s.isr &&& s.ier) 0x9

/-- er_req (R426): FUIF or TERRIF, enabled. -/
def State.erReq (s : State) : Bool := hasBits (s.isr &&& s.ier) 0x6

/-- nvic_ev_pend, nvic_er_pend (R39, R458): derived, not stored. -/
def State.pending (s : State) : Vec → Bool
  | .event => s.nvicEv && s.evReq
  | .error => s.nvicEr && s.erReq

/-- The priority number of a vector; lower is more urgent (R457). -/
def State.prio (s : State) : Vec → Nat
  | .event => s.par.evPrio
  | .error => s.par.erPrio

/-- The vector numbers (R457). -/
def Vec.number : Vec → Nat
  | .event => Config.evIrqn
  | .error => Config.erIrqn

/-- The handler's command word (R457). -/
def Vec.word : Vec → CmdWord
  | .event => 0x0008
  | .error => 0x0009

/-- The other vector. -/
def Vec.other : Vec → Vec
  | .event => .error
  | .error => .event

/-- irq_mask (R209): reload-done always, the others only with a callback. -/
def irqMask (c : ConfigD) : Word :=
  flagReload ||| (if c.lineCb ≠ 0 then flagLine else 0) ||| (if c.fuCb ≠ 0 then flagUnderrun else 0)
    ||| (if c.terrCb ≠ 0 then flagTerr else 0)

/-- Encoding of drv_state (R32). -/
def DrvState.code : DrvState → Nat
  | .uninit => 0
  | .stop => 1
  | .ready => 2
  | .active => 3

/-- Encoding of pnl_state (R77). -/
def PnlState.code : PnlState → Nat
  | .absent => 0
  | .stop => 1
  | .ready => 2
  | .active => 3

/-- The fault codes' numbers (R450). 0x0D is reserved and never raised. -/
def FaultCode.number : FaultCode → Nat
  | .state => 0x01
  | .range => 0x02
  | .null => 0x03
  | .window => 0x04
  | .geometry => 0x05
  | .layerEnabled => 0x06
  | .secondWaiter => 0x07
  | .context => 0x08
  | .illegalCommand => 0x09
  | .isrState => 0x0A
  | .nullCallback => 0x0B
  | .notOwner => 0x0C
  | .crash => 0x0E

end Sys2Proof.Machine
end

