-- ==== Sys2Proof/Machine/Ops.lean ====
section
/-! DEFINITION. The named operations over State: the running agent and its progress cell (R31, R36), the scheduler lock
(R36), taking a fault (R452) and taking and leaving an interrupt (R458, R459, R462), the raster agent's steps (R420 to
R424), and the schedule (log 2). -/

namespace Sys2Proof.Machine

-- ==== threads, contexts, progress cells ====

/-- Thread `t`; an unknown thread is idle. -/
def State.threadAt (s : State) (t : Nat) : Thread := s.threads.getD t .idle

/-- Update thread `t`. -/
def State.setThread (s : State) (t : Nat) (f : Thread → Thread) : State := { s with threads := s.threads.modify t f }

/-- The agent that runs: the innermost handler, else the current thread (R459: no thread steps while a handler runs). -/
def State.self (s : State) : Agent :=
  match s.irq with
  | a :: _ => .irq a.vec
  | [] => .thread s.cur

/-- ctx[self] (R36). -/
def State.ctx (s : State) : Ctx :=
  match s.irq with
  | _ :: _ => .isr
  | [] => if (s.threadAt s.cur).locked then .locked else .thread

/-- The progress cell of the running agent: of its callback's command while it runs one, else its own. -/
def State.curCell (s : State) : Option Cell :=
  match s.irq with
  | a :: _ => match a.bodyCell with
    | some c => some c
    | none => some a.cell
  | [] => (s.threadAt s.cur).prog

/-- The cell of a command about to start (R31: step 0). -/
def Issue.fresh (i : Issue) : Cell := ⟨i.word, i.ops, 0, [], none⟩

/-- A completed micro-step answered `r`: `step` advances by one (R31). -/
def Cell.push (c : Cell) (r : Word) : Cell := { c with step := c.step + 1, log := r :: c.log }

/-- `step` jumps by `d` where the pseudocode branches or loops (R31); `r` is what a local variable takes there. -/
def Cell.jump (c : Cell) (d : Int) (r : Word) : Cell := { c with step := (c.step + d).toNat, log := r :: c.log }

/-- A polling loop ends: `step` jumps over the two micro-steps of its yield (R31, R201, R206). -/
def Cell.skipYield (c : Cell) : Cell := { c with step := c.step + 2 }

/-- A polling loop goes back from the micro-step after its yield's first to its read (R31, R206). -/
def Cell.toRead (c : Cell) : Cell := { c with step := c.step - 2, log := c.log.drop 2 }

/-- Keep a progress cell where the running agent's stands. -/
def State.suspend (s : State) (c : Cell) : State :=
  match s.irq with
  | a :: rest => match a.bodyCell with
    | some _ => { s with irq := { a with bodyCell := some c } :: rest }
    | none => { s with irq := { a with cell := c } :: rest }
  | [] => s.setThread s.cur fun th => { th with prog := some c }

/-- `return v` by the command word `w`: the cell goes back to IDLE and the result record is handed over (R30, R31). When the
running agent is a handler and not a callback's command, its activation ends: the return from interrupt (R462). Nothing is
restored, since nothing was saved; the agent below runs again. -/
def State.finish (s : State) (w : CmdWord) (v : ResultVal) : State :=
  match s.irq with
  | a :: rest => match a.bodyCell with
    | some _ => { s with irq := { a with bodyCell := none } :: rest, irqResults := s.irqResults ++ [⟨w, v⟩] }
    | none => { s with irq := rest }
  | [] => s.setThread s.cur fun th => { th with prog := none, results := th.results ++ [⟨w, v⟩] }

/-- `lock()` by thread `t` (R36). -/
def State.takeLock (s : State) (t : Nat) : State :=
  { s.setThread t (fun th => { th with locked := true }) with lockHolder := some (.thread t) }

/-- `unlock()` by thread `t` (R36). -/
def State.releaseLock (s : State) (t : Nat) : State :=
  { s.setThread t (fun th => { th with locked := false }) with lockHolder := none }

/-- The scheduler lock is given up while the agent is suspended (R206: Y1, S1); its context stays. -/
def State.letGo (s : State) : State := { s with lockHolder := none }

/-- Agent `a` takes the scheduler lock back when it resumes (R206: Y2, S2). -/
def State.takeBack (s : State) (a : Agent) : State := { s with lockHolder := some a }

/-- `wake_msg[a]` (R34). -/
def State.wakeOf (s : State) : Agent → Option Msg
  | .thread t => (s.threadAt t).wakeMsg
  | .irq .event => s.wakeEv
  | .irq .error => s.wakeEr

/-- `wake_msg[a] ← m` (R34, R206, R460). -/
def State.setWake (s : State) (a : Agent) (m : Option Msg) : State :=
  match a with
  | .thread t => s.setThread t fun th => { th with wakeMsg := m }
  | .irq .event => { s with wakeEv := m }
  | .irq .error => { s with wakeEr := m }

/-- A message waits for agent `a`, and the lock is free for it to resume (R206: S2). -/
def State.wakeReady (s : State) (a : Agent) : Bool := (s.wakeOf a).isSome && s.lockHolder.isNone

/-- Append to the event history (R80). -/
def State.addEvent (s : State) (e : Event) : State := { s with events := s.events ++ [e] }

/-- Append to the wire log (R79). -/
def State.addWire (s : State) (d : Dir) (b : Byte) : State := { s with wire := s.wire ++ [⟨d, s.dcx, s.cs, b⟩] }

-- ==== taking a fault ====

/-- `raise F(info)` (R452): the fault mark with the command word, the step and the agent, FAULT(F) in the history, and the
block halts: `step` has no next state after it. Nothing else changes (R453): registers written stay written, a lock taken
stays taken (R143), and the progress cell stays at the failing micro-step. -/
def State.raise (s : State) (c : Cell) (code : FaultCode) (info : Option CmdWord) : State :=
  { (s.suspend c).addEvent (.fault code) with fault := some ⟨code, c.word, c.step, s.self, info⟩ }

-- ==== taking an interrupt ====

/-- The handler of `v` already runs (R458 c). -/
def State.handlerRuns (s : State) (v : Vec) : Bool := s.irq.any fun a => a.vec == v

/-- R458 (d): no handler runs, or the running one is less urgent and outside its critical section. -/
def State.preempts (s : State) (v : Vec) : Bool :=
  match s.irq with
  | [] => true
  | a :: _ => decide (s.prio v < s.prio a.vec) && !a.crit

/-- R458 (a) to (d) for one vector by itself. -/
def State.canDeliver (s : State) (v : Vec) : Bool :=
  s.fault.isNone && s.lockHolder.isNone && s.pending v && !s.handlerRuns v && s.preempts v

/-- The order of two deliverable vectors: the more urgent first, the event vector on a tie (R458, D48). -/
def State.outranks (s : State) (v w : Vec) : Bool :=
  decide (s.prio v < s.prio w) || (s.prio v == s.prio w && v == .event)

/-- Delivery of `v` is enabled (R458). -/
def State.deliverable (s : State) (v : Vec) : Bool :=
  s.canDeliver v && !(s.canDeliver v.other && s.outranks v.other v)

/-- A handler activation at its first micro-step. -/
def Activation.entry (v : Vec) : Activation := ⟨v, ⟨v.word, ⟨0, 0⟩, 0, [], none⟩, false, [], none⟩

/-- Interrupt entry (R459): a new activation, `prog[IRQ_v] = (handler word, 0)`, context ISR. Nothing is saved and no
register is written; the preempted agent's cell, context and lock state stay as they are. -/
def State.enter (s : State) (v : Vec) : State := { s with irq := .entry v :: s.irq }

-- ==== the raster agent ====

/-- R421: a commit is enabled. -/
def State.commitEnabled (s : State) : Bool := hasBits s.srcr srcrImr || (hasBits s.srcr srcrVbr && s.rasterOn)

/-- The commit, one atomic step (R68, R421): every active copy takes its shadow, the CLUTs too, both request bits clear,
RRIF is set for a vertical-blank request (for an immediate one only with RR_IRQ_ON_IMMEDIATE), and COMMIT is recorded. -/
def State.commit (s : State) : State :=
  let bits := s.srcr &&& 0x3
  { s with
    active := s.shadow
    clutActive := s.clutShadow
    srcr := 0
    isr := if hasBits bits srcrVbr || (hasBits bits srcrImr && s.par.rrIrqOnImmediate) then s.isr ||| flagReload else s.isr
    events := s.events ++ [.commit bits] }

/-- A flag raise, enabled while the controller is on (R423, R424). -/
def State.raiseFlag (s : State) (f : Word) : State := if s.rasterOn then { s with isr := s.isr ||| f } else s

/-- One step of the raster agent; where it is not enabled nothing happens. -/
def State.rasterStep (s : State) : RasterAct → State
  | .commit => if s.commitEnabled then s.commit else s
  | .line => s.raiseFlag flagLine
  | .underrun => s.raiseFlag flagUnderrun
  | .transferError => s.raiseFlag flagTerr

-- ==== which agent may step ====

/-- What the held agent `a` waits for has come (R18, R36, R206, R210, R385). -/
def State.waitOver (s : State) (a : Agent) : Wait → Bool
  | .lock => s.lockHolder.isNone
  | .relock => s.lockHolder.isNone
  | .wake => s.wakeReady a
  | .ltdcBus => s.ltdcOwner.isNone
  | .pnlBus => s.pnlOwner.isNone

/-- Thread `t` has a step: no handler runs (R459), no other agent holds the lock (R36), and its command is not held, or it
has a next thing to do. -/
def State.runnable (s : State) (t : Nat) : Bool :=
  s.irq.isEmpty && (s.lockHolder.isNone || s.lockHolder == some (.thread t)) &&
    match s.threads[t]? with
    | none => false
    | some th => match th.prog with
      | some c => match c.wait with
        | none => true
        | some w => s.waitOver (.thread t) w
      | none => match th.program with
        | [] => false
        | .cmd _ :: _ => true
        | .lock :: _ => s.lockHolder.isNone
        | .unlock :: _ => true

/-- Thread `t` is at a yield (R206). -/
def State.yielding (s : State) (t : Nat) : Bool :=
  match (s.threadAt t).prog with
  | some c => c.wait == some .relock
  | none => false

/-- Thread `t` still has something to do: a command under way, or an item of its program. R531 speaks of commands; that a
thread's own lock() or unlock() still to come counts as well, so that a run blocked before one ends in a hang, is a DESIGN
CHOICE (log 16). -/
def State.unfinished (s : State) (t : Nat) : Bool :=
  (s.threadAt t).prog.isSome || !(s.threadAt t).program.isEmpty

-- ==== the schedule ====

/-- What the schedule lets happen at a micro-step boundary of the running agent. -/
inductive Turn where
  /-- The running agent takes its micro-step from this state. -/
  | go (s : State)
  /-- Another agent is to move: the running agent stays where it is. -/
  | preempt (s : State)

/-- Read the schedule up to the running agent's next micro-step (R20, R420, log 2): raster steps happen; a pause ends the
turn; a switch or a delivery that the rules enable preempts the running agent and stays at the head; one they do not enable
is passed over. At the schedule's end the running agent goes on. -/
def settle : List Slot → State → Turn
  | [], s => .go { s with sched := [] }
  | .go :: r, s => .go { s with sched := r }
  | .pause :: r, s => .preempt { s with sched := r }
  | .raster a :: r, s => settle r (s.rasterStep a)
  | .switch t :: r, s =>
    if t ≠ s.cur ∧ s.runnable t = true then .preempt { s with sched := .switch t :: r } else settle r s
  | .deliver v :: r, s => if s.deliverable v then .preempt { s with sched := .deliver v :: r } else settle r s

/-- The boundary before a micro-step. -/
def State.turn (s : State) : Turn := settle s.sched s

end Sys2Proof.Machine
end

