-- ==== Sys2Proof/Machine/Micro.lean ====
section
/-! DEFINITION. Commands as micro-steps (R8, R20): what one micro-step does, a command's pseudocode as a tree of
micro-steps, the run of the running agent's command from its progress cell, the pseudocode primitives of R15 to R19, and
the dispatch prologue (R154). -/

namespace Sys2Proof.Machine

/-- What one micro-step does. -/
inductive Micro where
  /-- It completes, answers `r` to the pseudocode, and leaves `s`. -/
  | ok (r : Word) (s : State)
  /-- It completes, and the agent waits for the callback body it has just started (R465). -/
  | pause (r : Word) (s : State)
  /-- `hold until P` with P false: no step now (R18). -/
  | hold (w : Wait)
  /-- `raise F(info)` (R452). -/
  | raise (c : FaultCode) (info : Option CmdWord)
  /-- The run is not admitted. -/
  | stuck (f : Fault)

/-- Where a polling loop stands (R201, R206): at its read of SRCR, at the first or at the second micro-step of its yield. -/
inductive PollAt where
  | read
  | release
  | retake
deriving DecidableEq, Repr

/-- A command's remaining pseudocode. `micro` is one micro-step. `within g d` is what the pseudocode does between two
micro-steps without being one (R8): it reads `g` at the end of the micro-step before, no agent coming in between, and
`step` jumps by `d`. `poll` is the loop "read SRCR; until the bits of `mask` are clear, yield". -/
inductive Prog where
  | done (v : ResultVal)
  | micro (m : State → Micro) (k : Word → Prog)
  | within (g : State → Word) (d : Int) (k : Word → Prog)
  | poll (at_ : PollAt) (mask : Word) (k : Prog)

/-- The pseudocode that is left after what the progress cell's log holds, the oldest first (R31). -/
def Prog.after : Prog → List Word → Prog
  | p, [] => p
  | .done v, _ => .done v
  | .micro _ k, r :: rs => (k r).after rs
  | .within _ _ k, r :: rs => (k r).after rs
  | .poll _ mask k, r :: rs =>
    if hasBits r mask then
      match rs with
      | [] => .poll .release mask k
      | _ :: _ => .poll .retake mask k
    else k.after rs

/-- The first micro-step of a yield: give the scheduler lock up (R206, Y1). With the schedule exhausted and a commit due
the default interleaving is taken at once (log 2): the raster agent commits, the agent takes the lock back and reads SRCR
again. Otherwise the agent stands at the yield. -/
def pollRelease (mask : Word) (next : Cell → State → Out) (c : Cell) (s : State) : Out :=
  match s.turn with
  | .preempt s' => .next (s'.suspend c)
  | .go s' =>
    if s'.sched = [] ∧ s'.letGo.commitEnabled = true ∧ hasBits s'.letGo.commit.srcr mask = false then
      next ((c.push 0).toRead.push s'.letGo.commit.srcr).skipYield (s'.letGo.commit.takeBack s'.self)
    else .next (s'.letGo.suspend { c.push 0 with wait := some .relock })

/-- Read SRCR; if the polled bits are clear the loop ends, else the agent yields (R201, R206). -/
def pollRead (mask : Word) (next : Cell → State → Out) (c : Cell) (s : State) : Out :=
  match s.turn with
  | .preempt s' => .next (s'.suspend c)
  | .go s' =>
    let v := s'.regRead .srcr
    if hasBits v mask then pollRelease mask next (c.push v) s' else next (c.push v).skipYield s'

/-- The second micro-step of a yield: resume only with the lock free, and take it back (R206, Y2); then loop. -/
def pollRetake (mask : Word) (next : Cell → State → Out) (c : Cell) (s : State) : Out :=
  match s.turn with
  | .preempt s' => .next (s'.suspend c)
  | .go s' =>
    if s'.lockHolder = none then pollRead mask next c.toRead (s'.takeBack s'.self)
    else .next (s'.suspend { c with wait := some .relock })

/-- Run the running agent's command (R20): micro-steps in order, the schedule read before each one, until the command
returns, raises, is held, waits for a callback body, or another agent is to move. -/
def run : Prog → Cell → State → Out
  | .done v, c, s => .next (s.finish c.word v)
  | .micro m k, c, s =>
    match s.turn with
    | .preempt s' => .next (s'.suspend c)
    | .go s' =>
      match m s' with
      | .ok r s'' => run (k r) (c.push r) s''
      | .pause r s'' => .next (s''.suspend (c.push r))
      | .hold w => .next (s'.suspend { c with wait := some w })
      | .raise code info => .next (s'.raise c code info)
      | .stuck f => .fault f
  | .within g d k, c, s => run (k (g s)) (c.jump d (g s)) s
  | .poll .read mask k, c, s => pollRead mask (fun c' s' => run k c' s') c s
  | .poll .release mask k, c, s => pollRelease mask (fun c' s' => run k c' s') c s
  | .poll .retake mask k, c, s => pollRetake mask (fun c' s' => run k c' s') c s

-- ==== pseudocode primitives ====

/-- One micro-step that writes state. -/
def act (f : State → State) (k : Prog) : Prog := .micro (fun s => .ok 0 (f s)) fun _ => k

/-- A cell that the pseudocode reads outside a register access, a check and a state write: no micro-step (R8), read together
with the micro-step before it (DESIGN CHOICE, log 17). -/
def look (g : State → Word) (k : Word → Prog) : Prog := .within g 0 k

/-- `step` jumps by `d` (R31): over a branch not taken, or back to the top of a loop. -/
def jump (d : Int) (k : Prog) : Prog := .within (fun _ => 0) d fun _ => k

/-- `RegRead` (R15). -/
def rd (r : Reg) (k : Word → Prog) : Prog := .micro (fun s => .ok (s.regRead r) (s.afterRead r)) k

/-- `RegWrite` (R15). -/
def wr (r : Reg) (v : Word) (k : Prog) : Prog := act (fun s => s.regWrite r v) k

/-- `check(cond, code)` (R17): with CHECKS false it does nothing. It is a micro-step then too, with a boundary of its own, and
`step` counts it, so the index in an F_CRASH mark counts the skipped checks before it (DESIGN CHOICE, log 3: R17 and R454 do not
say whether a skipped check is a micro-step). The spec gives the fault no info; the model records none (DESIGN CHOICE, log
33). -/
def check (p : State → Bool) (code : FaultCode) (k : Prog) : Prog :=
  .micro (fun s => if s.par.checks && !p s then .raise code none else .ok 0 s) fun _ => k

/-- A pure check on values (R17). -/
def checkB (b : Bool) (code : FaultCode) (k : Prog) : Prog := check (fun _ => b) code k

/-- `crash_check(cond)` (R17): whatever CHECKS is. The fault records no info (DESIGN CHOICE, log 33). -/
def crashCheck (p : State → Bool) (k : Prog) : Prog :=
  .micro (fun s => if p s then .ok 0 s else .raise .crash none) fun _ => k

/-- Read an `n`-byte field at offset `off` of the record at `base` (R16, R108). A record whose address is no multiple of 4
is not admitted (R105). -/
def readField (base : Word) (off n : Nat) (s : State) : Micro :=
  if aligned4 base then .ok (s.mem.readLe (base + BitVec.ofNat 32 off) n) s else .stuck .misaligned

/-- `MemRead` of a record field. -/
def memRd (base : Word) (off n : Nat) (k : Word → Prog) : Prog := .micro (readField base off n) k

/-- `MemRead` of a field of the borrowed configuration block (R35, R207); with no configuration held it is a read through a
null pointer (R17, I4, log 32). -/
def cfgRd (off n : Nat) (k : Word → Prog) : Prog :=
  .micro (fun s => if s.cfg = 0 then .raise .crash none else readField s.cfg off n s) k

/-- `MemWrite` of a record field (R16, R105). -/
def memWr (base : Word) (off n : Nat) (v : Word) (k : Prog) : Prog :=
  .micro (fun s =>
    if aligned4 base then .ok 0 { s with mem := s.mem.writeLe (base + BitVec.ofNat 32 off) n v }
    else .stuck .misaligned) fun _ => k

/-- `MemRead(a, 1)` of a chunk buffer: no alignment needed (R105). -/
def byteRd (a : Word) (k : Byte → Prog) : Prog :=
  .micro (fun s => .ok ((s.mem.byteAt a).zeroExtend 32) s) fun r => k (r.truncate 8)

/-- `MemWrite(a, 1, b)` of a chunk buffer. -/
def byteWr (a : Word) (b : Byte) (k : Prog) : Prog := act (fun s => { s with mem := s.mem.set a.toNat b }) k

/-- `hold until P`, then the state write that follows it (R18). -/
def holdUntil (p : State → Bool) (w : Wait) (f : State → State) (k : Prog) : Prog :=
  .micro (fun s => if p s then .ok 0 (f s) else .hold w) fun _ => k

/-- A call of a platform shim, `SpiSelect()` or `SpiUnselect()`: one micro-step, and the block's own state stays (R19). -/
def shim (k : Prog) : Prog := act (fun s => s) k

/-- `lock()` (R36). From ISR or THREAD_LOCKED, which only CHECKS false reaches, it is stuck (R455). -/
def lockStep (k : Prog) : Prog :=
  .micro (fun s => match s.ctx with
    | .thread => if s.lockHolder.isNone then .ok 0 (s.takeLock s.cur) else .hold .lock
    | .locked => .stuck .lockNotAdmitted
    | .isr => .stuck .lockNotAdmitted) fun _ => k

/-- `unlock()` (R36). -/
def unlockStep (k : Prog) : Prog := act (fun s => s.releaseLock s.cur) k

/-- The sleep (R206): S1 gives the lock up; S2 is enabled when the message has come and the lock is free, and takes it. -/
def sleep (k : Prog) : Prog :=
  act (fun s => s.letGo) <|
  holdUntil (fun s => s.wakeReady s.self) .wake (fun s => s.takeBack s.self) k

-- ==== the dispatch prologue ====

/-- A command's core: its pseudocode, given what follows its `return v`. -/
abbrev Core := (ResultVal → Prog) → Prog

/-- The class of a command word (R142, R145), with the call form where the class has two. -/
inductive CmdClass where
  | init
  | pure
  | api
  | schedLocked (c : Form)
  | intSafe (c : Form)
deriving DecidableEq, Repr

/-- `F_ILLEGAL_COMMAND` with the command word as its info, whatever CHECKS is (R451). -/
def raiseIllegal (w : CmdWord) : Prog := .micro (fun _ => .raise .illegalCommand (some w)) fun _ => .done .unit

/-- The decode micro-step (R154): a word that is illegal in this build is raised (R146 f). -/
def decodeStep (i : Instr) (k : Prog) : Prog :=
  .micro (fun s => if i.wellFormed true s.par.useMutex then .ok 0 s else .raise .illegalCommand (some (encode i))) fun _ => k

/-- The context check (R154, R455). -/
def ctxCheck (p : Ctx → Bool) (k : Prog) : Prog := check (fun s => p s.ctx) .context k

/-- `api(core)` (R143), after its context check. -/
def apiWrap (core : Core) : Prog := lockStep (core fun v => unlockStep (.done v))

/-- `dispatch(w, o)` (R154). -/
def dispatch (i : Instr) (cl : CmdClass) (core : Core) : Prog :=
  decodeStep i <|
    match cl with
    | .init => core .done
    | .pure => core .done
    | .api => ctxCheck (· == .thread) (core .done)
    | .schedLocked .api => ctxCheck (· == .thread) (apiWrap core)
    | .intSafe .api => ctxCheck (· == .thread) (apiWrap core)
    | .schedLocked .locked => ctxCheck (· == .locked) (core .done)
    | .intSafe .locked => ctxCheck (· != .thread) (core .done)

/-- The progress cell a command runs from: the running agent's, or a new one when the agent is IDLE. -/
def State.cellOf (s : State) (w : CmdWord) : Cell :=
  match s.curCell with
  | some c => { c with wait := none }
  | none => ⟨w, ⟨0, 0⟩, 0, [], none⟩

/-- Run pseudocode from the running agent's progress cell. -/
def State.resume (s : State) (w : CmdWord) (p : Operands → Prog) : Out :=
  let c := s.cellOf w
  run ((p c.ops).after c.log.reverse) c s

/-- The meaning of a command that software issues: dispatch, then its core (R154). -/
def command (i : Instr) (cl : CmdClass) (core : Operands → Core) (s : State) : Out :=
  s.resume (encode i) fun o => dispatch i cl (core o)

/-- The running agent is the activation of `v` itself, not a callback's command (R457, R459). -/
def State.inHandler (s : State) (v : Vec) : Bool :=
  match s.irq with
  | a :: _ => a.vec == v && a.bodyCell.isNone
  | [] => false

/-- The meaning of a handler's word: the handler when the interrupt agent entered it, illegal when software issued it
(R146 e, R457, D62). -/
def handler (i : Instr) (v : Vec) (body : Prog) (s : State) : Out :=
  if s.inHandler v then s.resume (encode i) fun _ => body else s.resume (encode i) fun _ => raiseIllegal (encode i)

end Sys2Proof.Machine
end

