-- ==== Sys2Proof/Machine/Bus.lean ====
section
/-! DEFINITION. The LTDC mutex (40_lifecycle_reload.md section 5). It is not recursive: an owner that acquires again is
held for ever (R210, R515). -/

namespace Sys2Proof.Machine

/-- ACQUIRE_BUS_core (R210). -/
def acquireBusCore : Core := fun ret =>
  check (fun s => s.drvState != .uninit) .state <|
  holdUntil (fun s => s.ltdcOwner.isNone) .ltdcBus (fun s => { s with ltdcOwner := some s.self }) <|
  ret .unit

/-- RELEASE_BUS_core (R211). -/
def releaseBusCore : Core := fun ret =>
  check (fun s => s.drvState != .uninit) .state <|
  check (fun s => s.ltdcOwner == some s.self) .notOwner <|
  act (fun s => { s with ltdcOwner := none }) <|
  ret .unit

/-- ACQUIRE_BUS (R210). -/
def execAcquireBus (s : State) : Out := command .acquireBus .api (fun _ => acquireBusCore) s

/-- RELEASE_BUS (R211). -/
def execReleaseBus (s : State) : Out := command .releaseBus .api (fun _ => releaseBusCore) s

end Sys2Proof.Machine
end

