-- ==== Sys2Proof/Machine/Helpers.lean ====
section
/-! DEFINITION. The helper commands BPP, TO_ARGB8888 and FROM_ARGB8888 (43_helpers.md), and the functions the frame
commands share with them. -/

namespace Sys2Proof.Machine

/-- `bpp(fmt) = BPP_TABLE[fmt mod 8]` (R360). -/
def bpp (fmt : Word) : Word :=
  if fmt &&& 7 = 0 then 32
  else if fmt &&& 7 = 1 then 24
  else if fmt &&& 7 = 2 then 16
  else if fmt &&& 7 = 3 then 16
  else if fmt &&& 7 = 4 then 16
  else if fmt &&& 7 = 5 then 8
  else if fmt &&& 7 = 6 then 8
  else 16

/-- `bytes_pp(fmt) = bpp(fmt) / 8` (R361). -/
def bytesPp (fmt : Word) : Word := bpp fmt / 8

/-- Expansion of a 1-bit channel (R362). -/
def x1 (v : Word) : Word := if v = 1 then 0xFF else 0

/-- Expansion of a 4-bit channel (R362). -/
def x4 (v : Word) : Word := (v <<< 4) ||| v

/-- Expansion of a 5-bit channel (R362). -/
def x5 (v : Word) : Word := (v <<< 3) ||| (v >>> 2)

/-- Expansion of a 6-bit channel (R362). -/
def x6 (v : Word) : Word := (v <<< 2) ||| (v >>> 4)

/-- `t_n(c8) = c8 >> (8 − n)` (R362). -/
def tN (n : Nat) (c8 : Word) : Word := c8 >>> (8 - n)

/-- Four 8-bit channels as ARGB-8888 (R363). -/
def argb (a r g b : Word) : Word := (a <<< 24) ||| (r <<< 16) ||| (g <<< 8) ||| b

/-- TO_ARGB8888's conversion (R363, R364); ids 5 to 7 are CONV_CLUT, OPEN (D46, log 9). -/
def toArgb (c fmt : Word) : Word :=
  if fmt &&& 7 = 0 then c
  else if fmt &&& 7 = 1 then 0xFF000000#32 ||| (c &&& 0x00FFFFFF#32)
  else if fmt &&& 7 = 2 then argb 0xFF (x5 (field c 11 5)) (x6 (field c 5 6)) (x5 (field c 0 5))
  else if fmt &&& 7 = 3 then argb (x1 (field c 15 1)) (x5 (field c 10 5)) (x5 (field c 5 5)) (x5 (field c 0 5))
  else if fmt &&& 7 = 4 then argb (x4 (field c 12 4)) (x4 (field c 8 4)) (x4 (field c 4 4)) (x4 (field c 0 4))
  else Config.convClutTo c fmt

/-- FROM_ARGB8888's conversion (R363, R365); ids 5 to 7 are CONV_CLUT, OPEN (D46, log 9). -/
def fromArgb (c fmt : Word) : Word :=
  let a := field c 24 8
  let r := field c 16 8
  let g := field c 8 8
  let b := field c 0 8
  if fmt &&& 7 = 0 then c
  else if fmt &&& 7 = 1 then c &&& 0x00FFFFFF#32
  else if fmt &&& 7 = 2 then (tN 5 r <<< 11) ||| (tN 6 g <<< 5) ||| tN 5 b
  else if fmt &&& 7 = 3 then (tN 1 a <<< 15) ||| (tN 5 r <<< 10) ||| (tN 5 g <<< 5) ||| tN 5 b
  else if fmt &&& 7 = 4 then (tN 4 a <<< 12) ||| (tN 4 r <<< 8) ||| (tN 4 g <<< 4) ||| tN 4 b
  else Config.convClutFrom c fmt

/-- BPP_core (R360). -/
def bppCore (fmt : Word) : Core := fun ret => checkB (fmtOk fmt) .range (ret (.word (bpp fmt)))

/-- TO_ARGB8888_core (R364). -/
def toArgbCore (c fmt : Word) : Core := fun ret => checkB (fmtOk fmt) .range (ret (.word (toArgb c fmt)))

/-- FROM_ARGB8888_core (R365). -/
def fromArgbCore (c fmt : Word) : Core := fun ret => checkB (fmtOk fmt) .range (ret (.word (fromArgb c fmt)))

/-- BPP (R360); operand fmt. -/
def execBpp (s : State) : Out := command .bpp .pure (fun o => bppCore o.x) s

/-- TO_ARGB8888 (R364); operands color, fmt. -/
def execToArgb8888 (s : State) : Out := command .toArgb8888 .pure (fun o => toArgbCore o.x o.y) s

/-- FROM_ARGB8888 (R365); operands color, fmt. -/
def execFromArgb8888 (s : State) : Out := command .fromArgb8888 .pure (fun o => fromArgbCore o.x o.y) s

end Sys2Proof.Machine
end

