-- ==== Sys2Proof/Machine/Global.lean ====
section
/-! DEFINITION. The global accessors (41_global.md). Every one is class I in its locked form. -/

namespace Sys2Proof.Machine

/-- GET_GLOBAL_FLAGS_core (R260). -/
def getGlobalFlagsCore : Core := fun ret => rd .gcr fun g => ret (.word (g &&& gcrCfgMask))

/-- SET_GLOBAL_FLAGS_core (R261). -/
def setGlobalFlagsCore (flags : Word) : Core := fun ret =>
  rd .gcr fun g =>
  wr .gcr ((g &&& ~~~gcrCfgMask) ||| (flags &&& gcrCfgMask)) <|
  ret .unit

/-- GET_CLEAR_COLOR_core (R262). -/
def getClearColorCore : Core := fun ret => rd .bccr fun v => ret (.word (v &&& 0x00FFFFFF#32))

/-- SET_CLEAR_COLOR_core (R263). -/
def setClearColorCore (color : Word) : Core := fun ret => wr .bccr (rgb24 color) <| ret .unit

/-- GET_LINE_POS_core (R264). -/
def getLinePosCore : Core := fun ret => rd .lipcr fun v => ret (.word (v &&& Config.mask Config.vbits))

/-- SET_LINE_POS_core (R265). -/
def setLinePosCore (line : Word) : Core := fun ret =>
  checkB (decide (line ≤ Config.mask Config.vbits)) .range <|
  wr .lipcr (line &&& Config.mask Config.vbits) <|
  ret .unit

/-- GET_CURRENT_POS_core (R266): one read, so x and y come from the same sample. -/
def getCurrentPosCore : Core := fun ret => rd .cpsr fun p => ret (.pos (field p 16 16) (field p 0 16))

/-- GET_GLOBAL_FLAGS (R260). -/
def execGetGlobalFlags (c : Form) (s : State) : Out :=
  command (.getGlobalFlags c) (.intSafe c) (fun _ => getGlobalFlagsCore) s

/-- SET_GLOBAL_FLAGS (R261); operand flags. -/
def execSetGlobalFlags (c : Form) (s : State) : Out :=
  command (.setGlobalFlags c) (.intSafe c) (fun o => setGlobalFlagsCore o.x) s

/-- GET_CLEAR_COLOR (R262). -/
def execGetClearColor (c : Form) (s : State) : Out :=
  command (.getClearColor c) (.intSafe c) (fun _ => getClearColorCore) s

/-- SET_CLEAR_COLOR (R263); operand color. -/
def execSetClearColor (c : Form) (s : State) : Out :=
  command (.setClearColor c) (.intSafe c) (fun o => setClearColorCore o.x) s

/-- GET_LINE_POS (R264). -/
def execGetLinePos (c : Form) (s : State) : Out :=
  command (.getLinePos c) (.intSafe c) (fun _ => getLinePosCore) s

/-- SET_LINE_POS (R265); operand line. -/
def execSetLinePos (c : Form) (s : State) : Out :=
  command (.setLinePos c) (.intSafe c) (fun o => setLinePosCore o.x) s

/-- GET_CURRENT_POS (R266). -/
def execGetCurrentPos (c : Form) (s : State) : Out :=
  command (.getCurrentPos c) (.intSafe c) (fun _ => getCurrentPosCore) s

end Sys2Proof.Machine
end

