-- ==== Sys2Proof/Machine/Irq.lean ====
section
/-! DEFINITION. The two interrupt handlers (60_exceptions.md, R460, R461) and the callbacks they run (R465). -/

namespace Sys2Proof.Machine

/-- CB_BODY of a callback id (R465); an id the host gave no body has an empty one (log 7). -/
def State.cbBody (s : State) (cb : Word) : List Issue :=
  match s.cbBodies.find? fun p => p.1 == cb with
  | some p => p.2
  | none => []

/-- Change the running activation. -/
def State.mapTop (s : State) (f : Activation → Activation) : State :=
  match s.irq with
  | a :: rest => { s with irq := f a :: rest }
  | [] => s

/-- `run CB_BODY(cb)` (R465): the handler waits while its activation issues the body's commands. -/
def runBody (cb : Word) (k : Prog) : Prog :=
  .micro (fun s =>
    if s.cbBody cb = [] then .ok 0 s else .pause 0 (s.mapTop fun a => { a with body := s.cbBody cb })) fun _ => k

/-- `events ← events ++ [CB(kind)]`, then the callback's body (R460, R461). -/
def callback (kind : CbKind) (cb : Word) (k : Prog) : Prog := act (fun s => s.addEvent (.cb kind)) <| runBody cb k

/-- The acknowledge of a handler: read ICR, which gives 0, and write the flag (R49, R460, R461). -/
def acknowledge (flag : Word) (k : Prog) : Prog := rd .icr fun x => wr .icr (x ||| flag) k

/-- The path of an event whose callback must not be null (R460 line, R461): read the id, check, call, acknowledge. -/
def requiredCallback (off : Nat) (kind : CbKind) (flag : Word) (k : Prog) : Prog :=
  cfgRd off 4 fun cb =>
  checkB (cb != 0) .nullCallback <|
  crashCheck (fun _ => cb != 0) <|
  callback kind cb <|
  acknowledge flag k

/-- Open or close the handler's critical section (R460). -/
def setCrit (b : Bool) (k : Prog) : Prog := act (fun s => s.mapTop fun a => { a with crit := b }) k

/-- `wake_msg[waiter] ← MSG_OK` (R34, R460). -/
def State.sendWake (s : State) : State :=
  match s.waiter with
  | some a => s.setWake a (some .ok)
  | none => s

/-- `events ← events ++ [WAKE(waiter, MSG_OK)]` (R80, R460). -/
def State.logWake (s : State) : State :=
  match s.waiter with
  | some a => s.addEvent (.wake a .ok)
  | none => s

/-- Wake the parked agent, if any (R460): three micro-steps, or a jump over them. -/
def wakeParked (k : Prog) : Prog :=
  look (fun s => boolWord s.waiter.isSome) fun b =>
  if b = 0 then jump 3 k
  else
    act (fun s => s.sendWake) <|
    act (fun s => s.logWake) <|
    act (fun s => { s with waiter := none }) <|
    k

/-- The reload-done path after its callback (R460): under the critical section check ACTIVE, wake, READY; then acknowledge. -/
def completeReload (k : Prog) : Prog :=
  setCrit true <|
  check (fun s => s.drvState == .active) .isrState <|
  wakeParked <|
  act (fun s => { s with drvState := .ready }) <|
  setCrit false <|
  acknowledge flagReload k

/-- The reload-done path (R460): its callback is optional, two micro-steps or a jump over them. -/
def reloadDone (k : Prog) : Prog :=
  cfgRd 36 4 fun cb => if cb = 0 then jump 2 (completeReload k) else callback .reload cb <| completeReload k

/-- One branch of a handler, `size` micro-steps as the rule writes it: taken when the sampled flag is set and enabled. -/
def whenFlag (sample flag : Word) (size : Int) (body : Prog → Prog) (k : Prog) : Prog :=
  if hasBits sample flag then body k else jump size k

/-- The micro-steps of `requiredCallback` (R460, R461): id, check, crash check, event, body, two at ICR. -/
def requiredSize : Int := 7

/-- The micro-steps of `reloadDone` (R460): id, event, body, section, check, wake (3), READY, section, two at ICR. -/
def reloadDoneSize : Int := 12

/-- EVENT_IRQ (R460): one sample of ISR and IER, the line path, then the reload-done path. -/
def eventIrqBody : Prog :=
  rd .isr fun i =>
  rd .ier fun e =>
  whenFlag (i &&& e) flagLine requiredSize (requiredCallback 32 .line flagLine) <|
  whenFlag (i &&& e) flagReload reloadDoneSize reloadDone <|
  .done .unit

/-- ERROR_IRQ (R461): one sample, the underrun path, then the transfer-error path. -/
def errorIrqBody : Prog :=
  rd .isr fun i =>
  rd .ier fun e =>
  whenFlag (i &&& e) flagUnderrun requiredSize (requiredCallback 40 .underrun flagUnderrun) <|
  whenFlag (i &&& e) flagTerr requiredSize (requiredCallback 44 .terr flagTerr) <|
  .done .unit

/-- EVENT_IRQ (R460). -/
def execEventIrq (s : State) : Out := handler .eventIrq .event eventIrqBody s

/-- ERROR_IRQ (R461). -/
def execErrorIrq (s : State) : Out := handler .errorIrq .error errorIrqBody s

end Sys2Proof.Machine
end

