-- ==== Sys2Proof/Machine/LayerFlags.lean ====
section
/-! DEFINITION. The per-layer surface (42_layer.md sections 1 and 2): enable flags, pixel format, colour key, constant
alpha, default colour, blending. Every command is class I in its locked form and writes shadow registers only. -/

namespace Sys2Proof.Machine

/-- A getter of one layer register: the shadow value's bits `m`. -/
def getLayerBits (l : Layer) (q : LReg) (m : Word) : Core := fun ret => rd (.lay l q) fun r => ret (.word (r &&& m))

/-- An is-enabled predicate on LxCR. -/
def testLayerBit (l : Layer) (m : Word) : Core := fun ret =>
  rd (.lay l .cr) fun r => ret (.word (boolWord (hasBits r m)))

/-- Set bits of LxCR: a read, then a write (R106). -/
def setCrBits (l : Layer) (m : Word) : Core := fun ret =>
  rd (.lay l .cr) fun r => wr (.lay l .cr) (r ||| m) <| ret .unit

/-- Clear bits of LxCR: a read, then a write (R106). -/
def clearCrBits (l : Layer) (m : Word) : Core := fun ret =>
  rd (.lay l .cr) fun r => wr (.lay l .cr) (r &&& ~~~m) <| ret .unit

/-- GET_ENABLE_FLAGS_core (R280). -/
def getEnableFlagsCore (l : Layer) : Core := getLayerBits l .cr layerFlagMask

/-- SET_ENABLE_FLAGS_core (R281). -/
def setEnableFlagsCore (l : Layer) (flags : Word) : Core := fun ret =>
  wr (.lay l .cr) (flags &&& layerFlagMask) <| ret .unit

/-- The test of IS_LAYER_ENABLED (R282): the single bit, or with IS_ENABLED_MASK_BUG every bit but it. -/
def layerEnabledTest (bug : Bool) (r : Word) : Bool := if bug then hasBits r (~~~crLen) else hasBits r crLen

/-- IS_LAYER_ENABLED_core (R282). The read answers the predicate, whose form the build fixes. -/
def isLayerEnabledCore (l : Layer) : Core := fun ret =>
  .micro (fun s => .ok (boolWord (layerEnabledTest s.par.isEnabledMaskBug (s.regRead (.lay l .cr)))) s) fun b =>
  ret (.word b)

/-- ENABLE_LAYER_core (R283). -/
def enableLayerCore (l : Layer) : Core := setCrBits l crLen

/-- DISABLE_LAYER_core (R284). -/
def disableLayerCore (l : Layer) : Core := clearCrBits l crLen

/-- GET_PIXEL_FORMAT_core (R285). -/
def getPixelFormatCore (l : Layer) : Core := getLayerBits l .pfcr 0x7

/-- SET_PIXEL_FORMAT_core (R286). -/
def setPixelFormatCore (l : Layer) (fmt : Word) : Core := fun ret =>
  checkB (fmtOk fmt) .range <| wr (.lay l .pfcr) (fmt &&& 0x7) <| ret .unit

/-- GET_KEY_COLOR_core (R287). -/
def getKeyColorCore (l : Layer) : Core := getLayerBits l .ckcr 0x00FFFFFF#32

/-- SET_KEY_COLOR_core (R288). -/
def setKeyColorCore (l : Layer) (color : Word) : Core := fun ret => wr (.lay l .ckcr) (rgb24 color) <| ret .unit

/-- IS_KEYING_ENABLED_core (R289). -/
def isKeyingEnabledCore (l : Layer) : Core := testLayerBit l crColken

/-- ENABLE_KEYING_core (R290). -/
def enableKeyingCore (l : Layer) : Core := setCrBits l crColken

/-- DISABLE_KEYING_core (R291). -/
def disableKeyingCore (l : Layer) : Core := clearCrBits l crColken

/-- GET_CONST_ALPHA_core (R292). -/
def getConstAlphaCore (l : Layer) : Core := getLayerBits l .cacr 0xFF

/-- SET_CONST_ALPHA_core (R293): the operand's low 8 bits (R148). -/
def setConstAlphaCore (l : Layer) (alpha : Byte) : Core := fun ret =>
  wr (.lay l .cacr) (alpha.zeroExtend 32) <| ret .unit

/-- GET_DEFAULT_COLOR_core (R294). -/
def getDefaultColorCore (l : Layer) : Core := fun ret => rd (.lay l .dccr) fun r => ret (.word r)

/-- SET_DEFAULT_COLOR_core (R295). -/
def setDefaultColorCore (l : Layer) (color : Word) : Core := fun ret => wr (.lay l .dccr) color <| ret .unit

/-- GET_BLENDING_core (R296). -/
def getBlendingCore (l : Layer) : Core := getLayerBits l .bfcr 0x0707

/-- SET_BLENDING_core (R297). -/
def setBlendingCore (l : Layer) (factors : Word) : Core := fun ret =>
  wr (.lay l .bfcr) (factors &&& 0x0707) <| ret .unit

/-- GET_ENABLE_FLAGS (R280). -/
def execGetEnableFlags (l : Layer) (c : Form) (s : State) : Out :=
  command (.getEnableFlags l c) (.intSafe c) (fun _ => getEnableFlagsCore l) s

/-- SET_ENABLE_FLAGS (R281); operand flags. -/
def execSetEnableFlags (l : Layer) (c : Form) (s : State) : Out :=
  command (.setEnableFlags l c) (.intSafe c) (fun o => setEnableFlagsCore l o.x) s

/-- IS_LAYER_ENABLED (R282). -/
def execIsLayerEnabled (l : Layer) (c : Form) (s : State) : Out :=
  command (.isLayerEnabled l c) (.intSafe c) (fun _ => isLayerEnabledCore l) s

/-- ENABLE_LAYER (R283). -/
def execEnableLayer (l : Layer) (c : Form) (s : State) : Out :=
  command (.enableLayer l c) (.intSafe c) (fun _ => enableLayerCore l) s

/-- DISABLE_LAYER (R284). -/
def execDisableLayer (l : Layer) (c : Form) (s : State) : Out :=
  command (.disableLayer l c) (.intSafe c) (fun _ => disableLayerCore l) s

/-- GET_PIXEL_FORMAT (R285). -/
def execGetPixelFormat (l : Layer) (c : Form) (s : State) : Out :=
  command (.getPixelFormat l c) (.intSafe c) (fun _ => getPixelFormatCore l) s

/-- SET_PIXEL_FORMAT (R286); operand fmt. -/
def execSetPixelFormat (l : Layer) (c : Form) (s : State) : Out :=
  command (.setPixelFormat l c) (.intSafe c) (fun o => setPixelFormatCore l o.x) s

/-- GET_KEY_COLOR (R287). -/
def execGetKeyColor (l : Layer) (c : Form) (s : State) : Out :=
  command (.getKeyColor l c) (.intSafe c) (fun _ => getKeyColorCore l) s

/-- SET_KEY_COLOR (R288); operand color. -/
def execSetKeyColor (l : Layer) (c : Form) (s : State) : Out :=
  command (.setKeyColor l c) (.intSafe c) (fun o => setKeyColorCore l o.x) s

/-- IS_KEYING_ENABLED (R289). -/
def execIsKeyingEnabled (l : Layer) (c : Form) (s : State) : Out :=
  command (.isKeyingEnabled l c) (.intSafe c) (fun _ => isKeyingEnabledCore l) s

/-- ENABLE_KEYING (R290). -/
def execEnableKeying (l : Layer) (c : Form) (s : State) : Out :=
  command (.enableKeying l c) (.intSafe c) (fun _ => enableKeyingCore l) s

/-- DISABLE_KEYING (R291). -/
def execDisableKeying (l : Layer) (c : Form) (s : State) : Out :=
  command (.disableKeying l c) (.intSafe c) (fun _ => disableKeyingCore l) s

/-- GET_CONST_ALPHA (R292). -/
def execGetConstAlpha (l : Layer) (c : Form) (s : State) : Out :=
  command (.getConstAlpha l c) (.intSafe c) (fun _ => getConstAlphaCore l) s

/-- SET_CONST_ALPHA (R293); operand alpha. -/
def execSetConstAlpha (l : Layer) (c : Form) (s : State) : Out :=
  command (.setConstAlpha l c) (.intSafe c) (fun o => setConstAlphaCore l (low8 o.x)) s

/-- GET_DEFAULT_COLOR (R294). -/
def execGetDefaultColor (l : Layer) (c : Form) (s : State) : Out :=
  command (.getDefaultColor l c) (.intSafe c) (fun _ => getDefaultColorCore l) s

/-- SET_DEFAULT_COLOR (R295); operand color. -/
def execSetDefaultColor (l : Layer) (c : Form) (s : State) : Out :=
  command (.setDefaultColor l c) (.intSafe c) (fun o => setDefaultColorCore l o.x) s

/-- GET_BLENDING (R296). -/
def execGetBlending (l : Layer) (c : Form) (s : State) : Out :=
  command (.getBlending l c) (.intSafe c) (fun _ => getBlendingCore l) s

/-- SET_BLENDING (R297); operand factors. -/
def execSetBlending (l : Layer) (c : Form) (s : State) : Out :=
  command (.setBlending l c) (.intSafe c) (fun o => setBlendingCore l o.x) s

end Sys2Proof.Machine
end

