-- ==== Sys2Proof/Machine/Descriptors.lean ====
section
/-! DEFINITION. Reading descriptors from host memory, one field at a time in field order (R71 to R74, R108, R207, R314),
and the borrowed configuration. -/

namespace Sys2Proof.Machine

/-- ReadWindow of the record `o` bytes into the record at `p` (R314). -/
def readWindow (p : Word) (o : Nat) (k : WindowD → Prog) : Prog :=
  crashCheck (fun _ => p + BitVec.ofNat 32 o != 0) <|
  memRd p (o + 0) 2 fun hstart =>
  memRd p (o + 2) 2 fun hstop =>
  memRd p (o + 4) 2 fun vstart =>
  memRd p (o + 6) 2 fun vstop =>
  k ⟨hstart, hstop, vstart, vstop⟩

/-- ReadFrame of the record at `p` (R314). -/
def readFrame (p : Word) (k : FrameD → Prog) : Prog :=
  crashCheck (fun _ => p != 0) <|
  memRd p 0 4 fun addr =>
  memRd p 4 2 fun width =>
  memRd p 6 2 fun height =>
  memRd p 8 4 fun pitch =>
  memRd p 12 4 fun fmt =>
  k ⟨addr, width, height, pitch, fmt⟩

/-- The micro-steps of ReadLayerSpec (R314): its crash check, a frame (6), a window (5), seven fields. -/
def layerSpecSize : Int := 19

/-- ReadLayerSpec of the record at `p` (R314): each of the three reads has its own crash check. -/
def readLayerSpec (p : Word) (k : LayerSpecD → Prog) : Prog :=
  crashCheck (fun _ => p != 0) <|
  readFrame p fun frame =>
  readWindow p 16 fun window =>
  memRd p 24 4 fun defColor =>
  memRd p 28 4 fun keyColor =>
  memRd p 32 1 fun constAlpha =>
  memRd p 34 2 fun palLen =>
  memRd p 36 4 fun palPtr =>
  memRd p 40 4 fun blending =>
  memRd p 44 4 fun flags =>
  k { frame, window, defColor, keyColor, constAlpha, palLen, palPtr, blending, flags }

/-- ReadConfig (R207). -/
def readConfig (p : Word) (k : ConfigD → Prog) : Prog :=
  crashCheck (fun _ => p != 0) <|
  memRd p 0 2 fun screenWidth =>
  memRd p 2 2 fun screenHeight =>
  memRd p 4 2 fun hsyncWidth =>
  memRd p 6 2 fun vsyncHeight =>
  memRd p 8 2 fun hbpWidth =>
  memRd p 10 2 fun vbpHeight =>
  memRd p 12 2 fun hfpWidth =>
  memRd p 14 2 fun vfpHeight =>
  memRd p 16 4 fun flags =>
  memRd p 20 4 fun clearColor =>
  memRd p 24 4 fun bgSpec =>
  memRd p 28 4 fun fgSpec =>
  memRd p 32 4 fun lineCb =>
  memRd p 36 4 fun rrCb =>
  memRd p 40 4 fun fuCb =>
  memRd p 44 4 fun terrCb =>
  k { screenWidth, screenHeight, hsyncWidth, vsyncHeight, hbpWidth, vbpHeight, hfpWidth, vfpHeight, flags, clearColor,
      bgSpec, fgSpec, lineCb, rrCb, fuCb, terrCb }

end Sys2Proof.Machine
end

