-- ==== Sys2Proof/Machine/LayerUnits.lean ====
section
/-! DEFINITION. The per-layer surface (42_layer.md sections 3 to 6): palette, window, frame, whole layer. -/

namespace Sys2Proof.Machine

-- ==== palette ====

/-- SET_PALETTE_ENTRY_core (R305): the read and the check are two micro-steps. -/
def setPaletteEntryCore (l : Layer) (index color : Word) : Core := fun ret =>
  rd (.lay l .cr) fun r =>
  checkB (!hasBits r crLen) .layerEnabled <|
  checkB (decide (index < BitVec.ofNat 32 Config.clutLen)) .range <|
  wr (.lay l .clutwr) (packClut index color) <|
  ret .unit

/-- The loop of apply_palette (R306): `n` entries from index `i`, each read then written. Its body has three micro-steps;
`step` jumps back to its top, and over it at the end (R31). -/
def paletteLoop (l : Layer) (p : Word) : Nat → Nat → Prog → Prog
  | 0, _, k => jump 3 k
  | n + 1, i, k =>
    crashCheck (fun _ => p != 0) <|
    memRd p (4 * i) 4 fun e =>
    wr (.lay l .clutwr) (packClut (BitVec.ofNat 32 i) e) <|
    jump (-3) <|
    paletteLoop l p n (i + 1) k

/-- apply_palette (R306). -/
def applyPalette (l : Layer) (p n : Word) (k : Prog) : Prog :=
  rd (.lay l .cr) fun r =>
  checkB (!hasBits r crLen) .layerEnabled <|
  checkB (decide (n ≤ Config.limits.maxClutLen)) .range <|
  checkB (p != 0 || n == 0) .null <|
  paletteLoop l p n.toNat 0 k

/-- SET_PALETTE_core (R306). -/
def setPaletteCore (l : Layer) (p n : Word) : Core := fun ret => applyPalette l p n (ret .unit)

/-- IS_PALETTE_ENABLED_core (R307). -/
def isPaletteEnabledCore (l : Layer) : Core := testLayerBit l crCluten

/-- ENABLE_PALETTE_core (R308). -/
def enablePaletteCore (l : Layer) : Core := setCrBits l crCluten

/-- DISABLE_PALETTE_core (R309). -/
def disablePaletteCore (l : Layer) : Core := clearCrBits l crCluten

-- ==== window ====

/-- get_window_to (R315), for the record `o` bytes into the record at `q`: relative = absolute − active origin. The active
window is read whole, together with LxWVPCR: a tuple read is no micro-step of R8 (DESIGN CHOICE, log 17). -/
def getWindowTo (l : Layer) (q : Word) (o : Nat) (k : Prog) : Prog :=
  rd (.lay l .whpcr) fun h =>
  rd (.lay l .wvpcr) fun v =>
  look (fun s => s.activeWindow.hs) fun hs =>
  look (fun s => s.activeWindow.vs) fun vs =>
  crashCheck (fun _ => q + BitVec.ofNat 32 o != 0) <|
  memWr q (o + 0) 2 (whst h - hs) <|
  memWr q (o + 2) 2 (whsp h - hs) <|
  memWr q (o + 4) 2 (wvst v - vs) <|
  memWr q (o + 6) 2 (wvsp v - vs) <|
  k

/-- GET_WINDOW_core (R315). -/
def getWindowCore (l : Layer) (q : Word) : Core := fun ret =>
  checkB (q != 0) .null <| getWindowTo l q 0 (ret .unit)

/-- apply_window (R316): translate to absolute, check against the active window, write the two position registers. The
active window is read whole, together with the micro-step before (DESIGN CHOICE, log 17). -/
def applyWindow (l : Layer) (w : WindowD) (k : Prog) : Prog :=
  look (fun s => s.activeWindow.hs) fun hs =>
  look (fun s => s.activeWindow.he) fun he =>
  look (fun s => s.activeWindow.vs) fun vs =>
  look (fun s => s.activeWindow.ve) fun ve =>
  checkB (decide (hs ≤ w.hstart + hs)) .window <|
  checkB (decide (w.hstop + hs ≤ he)) .window <|
  checkB (decide (vs ≤ w.vstart + vs)) .window <|
  checkB (decide (w.vstop + vs ≤ ve)) .window <|
  wr (.lay l .whpcr) (packWh (w.hstart + hs) (w.hstop + hs)) <|
  wr (.lay l .wvpcr) (packWv (w.vstart + vs) (w.vstop + vs)) <|
  k

/-- SET_WINDOW_core (R316). -/
def setWindowCore (l : Layer) (p : Word) : Core := fun ret =>
  checkB (p != 0) .null <| readWindow p 0 fun w => applyWindow l w (ret .unit)

/-- SET_INVALID_WINDOW_core (R317). -/
def setInvalidWindowCore (l : Layer) : Core := fun ret => applyWindow l invalidWindow (ret .unit)

-- ==== frame ====

/-- get_frame_to (R325). -/
def getFrameTo (l : Layer) (q : Word) (k : Prog) : Prog :=
  rd (.lay l .cfbar) fun a =>
  rd (.lay l .cfblr) fun len =>
  rd (.lay l .cfblnr) fun n =>
  rd (.lay l .pfcr) fun pf =>
  crashCheck (fun _ => q != 0) <|
  memWr q 0 4 a <|
  memWr q 4 2 (lineBytes len / bytesPp (pf &&& 0x7)) <|
  memWr q 6 2 (n &&& Config.mask Config.vbits) <|
  memWr q 8 4 (cfbp len) <|
  memWr q 12 4 (pf &&& 0x7) <|
  k

/-- GET_FRAME_core (R325). -/
def getFrameCore (l : Layer) (q : Word) : Core := fun ret => checkB (q != 0) .null <| getFrameTo l q (ret .unit)

/-- apply_frame (R326). The line size is in bytes (C2). -/
def applyFrame (l : Layer) (f : FrameD) (k : Prog) : Prog :=
  check (fun s => s.cfg != 0) .state <|
  checkB (fmtOk f.fmt) .range <|
  crashCheck (fun s => s.cfg != 0) <|
  cfgRd 0 2 fun sw =>
  cfgRd 2 2 fun sh =>
  checkB (decide (f.width ≤ sw)) .geometry <|
  checkB (decide (f.height ≤ sh)) .geometry <|
  checkB (inRange (bytesPp f.fmt * f.width) Config.limits.minLineBytes Config.limits.maxLineBytes) .geometry <|
  checkB (inRange f.height Config.limits.minLines Config.limits.maxLines) .geometry <|
  checkB (decide (bytesPp f.fmt * f.width ≤ f.pitch)) .geometry <|
  wr (.lay l .pfcr) (f.fmt &&& 0x7) <|
  wr (.lay l .cfbar) f.addr <|
  wr (.lay l .cfblr) (packCfblr f.pitch (bytesPp f.fmt * f.width)) <|
  wr (.lay l .cfblnr) (f.height &&& Config.mask Config.vbits) <|
  k

/-- SET_FRAME_core (R326). -/
def setFrameCore (l : Layer) (p : Word) : Core := fun ret =>
  checkB (p != 0) .null <| readFrame p fun f => applyFrame l f (ret .unit)

/-- GET_FRAME_ADDRESS_core (R327). -/
def getFrameAddressCore (l : Layer) : Core := fun ret => rd (.lay l .cfbar) fun r => ret (.word r)

/-- SET_FRAME_ADDRESS_core (R328). -/
def setFrameAddressCore (l : Layer) (addr : Word) : Core := fun ret => wr (.lay l .cfbar) addr <| ret .unit

-- ==== whole layer ====

/-- GET_LAYER_core (R335). Byte +33 is padding and is not written (R314). -/
def getLayerCore (l : Layer) (q : Word) : Core := fun ret =>
  checkB (q != 0) .null <|
  getFrameTo l q <|
  getWindowTo l q 16 <|
  rd (.lay l .dccr) fun d =>
  memWr q 24 4 d <|
  rd (.lay l .ckcr) fun ck =>
  memWr q 28 4 (ck &&& 0x00FFFFFF#32) <|
  rd (.lay l .cacr) fun ca =>
  memWr q 32 1 (ca &&& 0xFF) <|
  memWr q 34 2 0 <|
  memWr q 36 4 0 <|
  rd (.lay l .bfcr) fun bf =>
  memWr q 40 4 (bf &&& 0x0707) <|
  rd (.lay l .cr) fun cr =>
  memWr q 44 4 (cr &&& layerFlagMask) <|
  ret .unit

/-- The micro-steps of apply_palette (R306): a read, three checks, the three of the loop's body. -/
def applyPaletteSize : Int := 7

/-- The optional palette of a whole-layer write (R336): present when its pointer is not null. -/
def optPalette (l : Layer) (p n : Word) (k : Prog) : Prog :=
  if p ≠ 0 then applyPalette l p n k else jump applyPaletteSize k

/-- The whole-layer write of a specification (R336): frame, window, default colour, key, alpha, blending, palette, flags. -/
def applySpec (l : Layer) (d : LayerSpecD) (k : Prog) : Prog :=
  applyFrame l d.frame <|
  applyWindow l d.window <|
  wr (.lay l .dccr) d.defColor <|
  wr (.lay l .ckcr) (rgb24 d.keyColor) <|
  wr (.lay l .cacr) (d.constAlpha &&& 0xFF) <|
  wr (.lay l .bfcr) (d.blending &&& 0x0707) <|
  optPalette l d.palPtr d.palLen <|
  wr (.lay l .cr) (d.flags &&& layerFlagMask) <|
  k

/-- SET_LAYER_core (R336), as START runs it too: a null pointer is the default specification. -/
def setLayerTo (l : Layer) (p : Word) (k : Prog) : Prog :=
  if p = 0 then jump layerSpecSize (applySpec l defaultSpec k) else readLayerSpec p fun d => applySpec l d k

/-- SET_LAYER_core (R336). -/
def setLayerCore (l : Layer) (p : Word) : Core := fun ret => setLayerTo l p (ret .unit)

-- ==== meanings ====

/-- SET_PALETTE_ENTRY (R305); operands index, color. -/
def execSetPaletteEntry (l : Layer) (c : Form) (s : State) : Out :=
  command (.setPaletteEntry l c) (.intSafe c) (fun o => setPaletteEntryCore l o.x o.y) s

/-- SET_PALETTE (R306); operands pal_ptr, pal_len. -/
def execSetPalette (l : Layer) (c : Form) (s : State) : Out :=
  command (.setPalette l c) (.intSafe c) (fun o => setPaletteCore l o.x o.y) s

/-- IS_PALETTE_ENABLED (R307). -/
def execIsPaletteEnabled (l : Layer) (c : Form) (s : State) : Out :=
  command (.isPaletteEnabled l c) (.intSafe c) (fun _ => isPaletteEnabledCore l) s

/-- ENABLE_PALETTE (R308). -/
def execEnablePalette (l : Layer) (c : Form) (s : State) : Out :=
  command (.enablePalette l c) (.intSafe c) (fun _ => enablePaletteCore l) s

/-- DISABLE_PALETTE (R309). -/
def execDisablePalette (l : Layer) (c : Form) (s : State) : Out :=
  command (.disablePalette l c) (.intSafe c) (fun _ => disablePaletteCore l) s

/-- GET_WINDOW (R315); operand out_ptr. -/
def execGetWindow (l : Layer) (c : Form) (s : State) : Out :=
  command (.getWindow l c) (.intSafe c) (fun o => getWindowCore l o.x) s

/-- SET_WINDOW (R316); operand win_ptr. -/
def execSetWindow (l : Layer) (c : Form) (s : State) : Out :=
  command (.setWindow l c) (.intSafe c) (fun o => setWindowCore l o.x) s

/-- SET_INVALID_WINDOW (R317). -/
def execSetInvalidWindow (l : Layer) (c : Form) (s : State) : Out :=
  command (.setInvalidWindow l c) (.intSafe c) (fun _ => setInvalidWindowCore l) s

/-- GET_FRAME (R325); operand out_ptr. -/
def execGetFrame (l : Layer) (c : Form) (s : State) : Out :=
  command (.getFrame l c) (.intSafe c) (fun o => getFrameCore l o.x) s

/-- SET_FRAME (R326); operand frame_ptr. -/
def execSetFrame (l : Layer) (c : Form) (s : State) : Out :=
  command (.setFrame l c) (.intSafe c) (fun o => setFrameCore l o.x) s

/-- GET_FRAME_ADDRESS (R327). -/
def execGetFrameAddress (l : Layer) (c : Form) (s : State) : Out :=
  command (.getFrameAddress l c) (.intSafe c) (fun _ => getFrameAddressCore l) s

/-- SET_FRAME_ADDRESS (R328); operand addr. -/
def execSetFrameAddress (l : Layer) (c : Form) (s : State) : Out :=
  command (.setFrameAddress l c) (.intSafe c) (fun o => setFrameAddressCore l o.x) s

/-- GET_LAYER (R335); operand out_ptr. -/
def execGetLayer (l : Layer) (c : Form) (s : State) : Out :=
  command (.getLayer l c) (.intSafe c) (fun o => getLayerCore l o.x) s

/-- SET_LAYER (R336); operand spec_ptr. -/
def execSetLayer (l : Layer) (c : Form) (s : State) : Out :=
  command (.setLayer l c) (.intSafe c) (fun o => setLayerCore l o.x) s

end Sys2Proof.Machine
end

