-- ==== Sys2Proof/Machine/Lifecycle.lean ====
section
/-! DEFINITION. INIT, START and STOP, with the subroutines they share: the internal commit and the timing programmer
(40_lifecycle_reload.md sections 1 to 3). -/

namespace Sys2Proof.Machine

/-- peripheral_reset (R200): every LTDC register, shadow and active, takes its RESET_VALUES entry; ISR, SRCR and IER too.
The CLUT is kept (R65, R501). -/
def State.peripheralReset (s : State) : State :=
  { s with shadow := .resetValues, active := .resetValues, srcr := 0, ier := 0, isr := 0, lipcr := 0 }

/-- INIT_core (R200). -/
def initCore : Core := fun ret =>
  check (fun s => s.drvState == .uninit) .state <|
  act (fun s => s.peripheralReset) <|
  act (fun s => { s with activeWindow := ⟨0, 0, 0, 0⟩ }) <|
  act (fun s => { s with waiter := none }) <|
  act (fun s => { s with ltdcOwner := none }) <|
  act (fun s => { s with cfg := 0 }) <|
  act (fun s => { s with drvState := .stop }) <|
  ret .unit

/-- internal_commit (R201): request an immediate reload, then poll IMR, yielding while it is set. -/
def internalCommit (k : Prog) : Prog := wr .srcr srcrImr <| .poll .read srcrImr k

/-- program_timings (R208). The accumulators wrap on `u32` (R12). -/
def programTimings (c : ConfigD) (k : Prog) : Prog :=
  let L := Config.limits
  let ah0 := c.hsyncWidth - 1
  let av0 := c.vsyncHeight - 1
  let ah1 := ah0 + c.hbpWidth
  let av1 := av0 + c.vbpHeight
  let ah2 := ah1 + c.screenWidth
  let av2 := av1 + c.screenHeight
  let ah3 := ah2 + c.hfpWidth
  let av3 := av2 + c.vfpHeight
  checkB (inRange c.hsyncWidth L.minHsync L.maxHsync) .range <|
  checkB (inRange c.vsyncHeight L.minVsync L.maxVsync) .range <|
  wr .sscr (packHv ah0 av0) <|
  checkB (inRange c.hbpWidth L.minHbp L.maxHbp) .range <|
  checkB (inRange c.vbpHeight L.minVbp L.maxVbp) .range <|
  checkB (inRange ah1 L.minAccHbp L.maxAccHbp) .range <|
  checkB (inRange av1 L.minAccVbp L.maxAccVbp) .range <|
  wr .bpcr (packHv ah1 av1) <|
  checkB (inRange c.screenWidth L.minScreenW L.maxScreenW) .range <|
  checkB (inRange c.screenHeight L.minScreenH L.maxScreenH) .range <|
  checkB (inRange ah2 L.minAccAaw L.maxAccAaw) .range <|
  checkB (inRange av2 L.minAccAah L.maxAccAah) .range <|
  wr .awcr (packHv ah2 av2) <|
  checkB (inRange c.hfpWidth L.minHfp L.maxHfp) .range <|
  checkB (inRange c.vfpHeight L.minVfp L.maxVfp) .range <|
  checkB (inRange ah3 L.minAccTotalW L.maxAccTotalW) .range <|
  checkB (inRange av3 L.minAccTotalH L.maxAccTotalH) .range <|
  wr .twcr (packHv ah3 av3) <|
  act (fun s => { s with activeWindow :=
    ⟨(ah1 + 1).truncate 16, ah2.truncate 16, (av1 + 1).truncate 16, av2.truncate 16⟩ }) <|
  k

/-- The tail of START once the layers are programmed (R202): vectors, sources, final commit, controller on, commit. -/
def startTail (c : ConfigD) (k : Prog) : Prog :=
  act (fun s => { s with nvicEv := true }) <|
  act (fun s => { s with nvicEr := true }) <|
  wr .ier (irqMask c) <|
  internalCommit <|
  rd .gcr fun g =>
  wr .gcr (g ||| gcrLtdcen) <|
  internalCommit <|
  act (fun s => { s with drvState := .ready }) <|
  k

/-- START_core (R202). -/
def startCore (cfgPtr : Word) : Core := fun ret =>
  check (fun s => s.drvState == .stop) .state <|
  checkB (cfgPtr != 0) .null <|
  readConfig cfgPtr fun c =>
  act (fun s => { s with cfg := cfgPtr }) <|
  rd .gcr fun g =>
  wr .gcr (g &&& ~~~gcrLtdcen) <|
  wr .ier 0 <|
  internalCommit <|
  programTimings c <|
  rd .gcr fun g =>
  wr .gcr ((g &&& ~~~gcrCfgMask) ||| (c.flags &&& gcrCfgMask)) <|
  wr .bccr (rgb24 c.clearColor) <|
  setLayerTo .l1 c.bgSpec <|
  setLayerTo .l2 c.fgSpec <|
  startTail c <|
  ret .unit

/-- STOP_core (R203). -/
def stopCore : Core := fun ret =>
  check (fun s => s.drvState == .ready) .state <|
  rd .gcr fun g =>
  wr .gcr (g &&& ~~~gcrLtdcen) <|
  wr .ier 0 <|
  internalCommit <|
  act (fun s => { s with drvState := .stop }) <|
  ret .unit

/-- INIT (R200). -/
def execInit (s : State) : Out := command .init .init (fun _ => initCore) s

/-- START (R202); operand cfg_ptr. -/
def execStart (c : Form) (s : State) : Out := command (.start c) (.schedLocked c) (fun o => startCore o.x) s

/-- STOP (R203). -/
def execStop (c : Form) (s : State) : Out := command (.stop c) (.schedLocked c) (fun _ => stopCore) s

end Sys2Proof.Machine
end

