-- ==== Sys2Proof/Machine/Panel.lean ====
section
/-! DEFINITION. The panel framer (44_panel.md): life cycle, mutex, select bracket, transfers. It shares no state with the
LTDC sequencer (R395) and takes no scheduler lock (R380). -/

namespace Sys2Proof.Machine

-- ==== the link ====

/-- `spi_tx` of a byte (R381). -/
def spiTx (b : Byte) (k : Prog) : Prog := act (fun s => s.addWire .tx b) k

/-- The next received byte: a free value (R381, log 8). -/
def State.rxByte (s : State) : Byte := Config.spiRx s.draws

/-- Receive one byte: an RX entry, and one draw used (R381). -/
def State.receive (s : State) : State := { s.addWire .rx s.rxByte with draws := s.draws + 1 }

/-- `spi_rx` (R381). -/
def spiRx (k : Byte → Prog) : Prog := .micro (fun s => .ok (s.rxByte.zeroExtend 32) s.receive) fun r => k (r.truncate 8)

/-- `SpiSend` of the scratch byte (R389, R390). -/
def sendScratch (k : Prog) : Prog := act (fun s => s.addWire .tx s.pnlScratch) k

/-- `SpiSend` of several bytes, the first first (R381): a loop whose body is one micro-step (R31, log 3). -/
def spiSend : List Byte → Prog → Prog
  | [], k => jump 1 k
  | b :: rest, k => spiTx b <| jump (-1) <| spiSend rest k

/-- `SpiReceive(n)` (R381), a loop of one micro-step: `acc` holds the bytes so far, the last first. -/
def spiReceive : Nat → List Byte → (List Byte → Prog) → Prog
  | 0, acc, k => jump 1 (k acc.reverse)
  | n + 1, acc, k => spiRx fun b => jump (-1) <| spiReceive n (b :: acc) k

/-- Read `n` bytes of a chunk buffer from index `i` (R392), a loop of one micro-step. -/
def readChunk (buf : Word) : Nat → Nat → List Byte → (List Byte → Prog) → Prog
  | 0, _, acc, k => jump 1 (k acc.reverse)
  | n + 1, i, acc, k => byteRd (buf + BitVec.ofNat 32 i) fun b => jump (-1) <| readChunk buf n (i + 1) (b :: acc) k

/-- Store the bytes of a chunk from index `i` (R393), a loop of one micro-step. -/
def storeChunk (buf : Word) : Nat → List Byte → Prog → Prog
  | _, [], k => jump 1 k
  | i, b :: rest, k => byteWr (buf + BitVec.ofNat 32 i) b <| jump (-1) <| storeChunk buf (i + 1) rest k

/-- `PadClear` and `dcx_level ← 0`, or `PadSet` and `dcx_level ← 1` (R389, R390). -/
def driveDcx (d : DcxLevel) (k : Prog) : Prog := act (fun s => { s with dcx := d }) k

/-- The panel's state precondition (R395). -/
def pnlCheck (p : PnlState) (k : Prog) : Prog := check (fun s => s.pnlState == p) .state k

-- ==== life cycle and mutex ====

/-- PNL_OBJECT_INIT_core (R382). -/
def pnlObjectInitCore : Core := fun ret =>
  pnlCheck .absent <|
  act (fun s => { s with pnlCfg := none }) <|
  act (fun s => { s with pnlScratch := 0 }) <|
  act (fun s => { s with pnlOwner := none }) <|
  act (fun s => { s with pnlState := .stop }) <|
  ret .unit

/-- PNL_START_core (R383). -/
def pnlStartCore (p : Word) : Core := fun ret =>
  pnlCheck .stop <|
  checkB (p != 0) .null <|
  crashCheck (fun _ => p != 0) <|
  memRd p 0 4 fun spi =>
  memRd p 4 4 fun dcx =>
  act (fun s => { s with pnlCfg := some ⟨spi, dcx⟩ }) <|
  act (fun s => { s with pnlState := .ready }) <|
  ret .unit

/-- PNL_STOP_core (R384). -/
def pnlStopCore : Core := fun ret =>
  pnlCheck .ready <| act (fun s => { s with pnlState := .stop }) <| ret .unit

/-- PNL_ACQUIRE_BUS_core (R385). -/
def pnlAcquireBusCore : Core := fun ret =>
  check (fun s => s.pnlState != .absent) .state <|
  holdUntil (fun s => s.pnlOwner.isNone) .pnlBus (fun s => { s with pnlOwner := some s.self }) <|
  ret .unit

/-- PNL_RELEASE_BUS_core (R386). -/
def pnlReleaseBusCore : Core := fun ret =>
  check (fun s => s.pnlState != .absent) .state <|
  check (fun s => s.pnlOwner == some s.self) .notOwner <|
  act (fun s => { s with pnlOwner := none }) <|
  ret .unit

-- ==== select bracket ====

/-- PNL_SELECT_core (R387): check, `SpiSelect()`, level, state. -/
def pnlSelectCore : Core := fun ret =>
  pnlCheck .ready <|
  shim <|
  act (fun s => { s with cs := .asserted }) <|
  act (fun s => { s with pnlState := .active }) <|
  ret .unit

/-- PNL_UNSELECT_core (R388): check, `SpiUnselect()`, level, state. -/
def pnlUnselectCore : Core := fun ret =>
  pnlCheck .active <|
  shim <|
  act (fun s => { s with cs := .deasserted }) <|
  act (fun s => { s with pnlState := .ready }) <|
  ret .unit

-- ==== transfers ====

/-- The single-byte sends (R389, R390): scratch, D/CX, byte. -/
def sendByte (d : DcxLevel) (b : Byte) : Core := fun ret =>
  pnlCheck .active <|
  act (fun s => { s with pnlScratch := b }) <|
  driveDcx d <|
  sendScratch <|
  ret .unit

/-- PNL_WRITE_COMMAND_core (R389). -/
def pnlWriteCommandCore (b : Byte) : Core := sendByte .low b

/-- PNL_WRITE_BYTE_core (R390). -/
def pnlWriteByteCore (b : Byte) : Core := sendByte .high b

/-- PNL_READ_BYTE_core (R391). R8 lists no state read as a micro-step: `return pnl_scratch` reads the cell together with the
write before it, so no other thread's write of the scratch byte comes between (DESIGN CHOICE, log 17). -/
def pnlReadByteCore : Core := fun ret =>
  pnlCheck .active <|
  driveDcx .high <|
  spiRx fun b =>
  act (fun s => { s with pnlScratch := b }) <|
  look (fun s => s.pnlScratch.zeroExtend 32) fun r =>
  ret (.word r)

/-- The checks and the D/CX level both chunk commands begin with (R392, R393). -/
def chunkHead (buf n : Word) (k : Prog) : Prog :=
  pnlCheck .active <|
  checkB (decide (1 ≤ n)) .range <|
  checkB (buf != 0) .null <|
  driveDcx .high <|
  k

/-- PNL_WRITE_CHUNK_core (R392). F_CRASH needs n ≥ 1, as the rule's exceptions say (log 28). -/
def pnlWriteChunkCore (buf n : Word) : Core := fun ret =>
  chunkHead buf n <|
  crashCheck (fun _ => buf != 0 || n == 0) <|
  readChunk buf n.toNat 0 [] fun d =>
  spiSend d <|
  ret .unit

/-- PNL_READ_CHUNK_core (R393). -/
def pnlReadChunkCore (buf n : Word) : Core := fun ret =>
  chunkHead buf n <|
  spiReceive n.toNat [] fun d =>
  crashCheck (fun _ => buf != 0 || n == 0) <|
  storeChunk buf 0 d <|
  ret .unit

-- ==== meanings ====

/-- PNL_OBJECT_INIT (R382). -/
def execPnlObjectInit (s : State) : Out := command .pnlObjectInit .init (fun _ => pnlObjectInitCore) s

/-- PNL_START (R383); operand pcfg_ptr. -/
def execPnlStart (s : State) : Out := command .pnlStart .api (fun o => pnlStartCore o.x) s

/-- PNL_STOP (R384). -/
def execPnlStop (s : State) : Out := command .pnlStop .api (fun _ => pnlStopCore) s

/-- PNL_ACQUIRE_BUS (R385). -/
def execPnlAcquireBus (s : State) : Out := command .pnlAcquireBus .api (fun _ => pnlAcquireBusCore) s

/-- PNL_RELEASE_BUS (R386). -/
def execPnlReleaseBus (s : State) : Out := command .pnlReleaseBus .api (fun _ => pnlReleaseBusCore) s

/-- PNL_SELECT (R387). -/
def execPnlSelect (s : State) : Out := command .pnlSelect .api (fun _ => pnlSelectCore) s

/-- PNL_UNSELECT (R388). -/
def execPnlUnselect (s : State) : Out := command .pnlUnselect .api (fun _ => pnlUnselectCore) s

/-- PNL_WRITE_COMMAND (R389); operand byte. -/
def execPnlWriteCommand (s : State) : Out := command .pnlWriteCommand .api (fun o => pnlWriteCommandCore (low8 o.x)) s

/-- PNL_WRITE_BYTE (R390); operand byte. -/
def execPnlWriteByte (s : State) : Out := command .pnlWriteByte .api (fun o => pnlWriteByteCore (low8 o.x)) s

/-- PNL_READ_BYTE (R391). -/
def execPnlReadByte (s : State) : Out := command .pnlReadByte .api (fun _ => pnlReadByteCore) s

/-- PNL_WRITE_CHUNK (R392); operands buf, n. -/
def execPnlWriteChunk (s : State) : Out := command .pnlWriteChunk .api (fun o => pnlWriteChunkCore o.x o.y) s

/-- PNL_READ_CHUNK (R393); operands buf, n. -/
def execPnlReadChunk (s : State) : Out := command .pnlReadChunk .api (fun o => pnlReadChunkCore o.x o.y) s

end Sys2Proof.Machine
end

