-- ==== Sys2Proof/Machine/Reload.lean ====
section
/-! DEFINITION. The reload protocol (40_lifecycle_reload.md section 4): IS_RELOADING, START_RELOAD, RELOAD_WAIT. -/

namespace Sys2Proof.Machine

/-- The request bit of a reload (R205, R206): IMR when immediate, else VBR. -/
def requestBit (immediate : Word) : Word := if isTrue immediate then srcrImr else srcrVbr

/-- IS_RELOADING_core (R204). -/
def isReloadingCore : Core := fun ret => rd .srcr fun v => ret (.word (boolWord (hasBits v 0x3)))

/-- START_RELOAD_core (R205): the state is written before the request. -/
def startReloadCore (immediate : Word) : Core := fun ret =>
  check (fun s => s.drvState == .ready) .state <|
  act (fun s => { s with drvState := .active }) <|
  wr .srcr (requestBit immediate) <|
  ret .unit

/-- The polled wait (R206): request, poll while yielding, back to READY. -/
def polledWait (b : Word) : Core := fun ret =>
  wr .srcr b <|
  .poll .read b <|
  act (fun s => { s with drvState := .ready }) <|
  ret (.msg .ok)

/-- `waiter ← self` (R206). -/
def State.park (s : State) : State := { s with waiter := some s.self }

/-- The running agent takes its message (R34, R206). -/
def State.takeMsg (s : State) : State := s.setWake s.self none

/-- The sleeping wait (R206): request, park, sleep, take the message. Reading wake_msg[self] belongs to the write that
clears it (DESIGN CHOICE, log 17); MSG_OK is its one value (D60). -/
def sleepingWait : Core := fun ret =>
  wr .srcr srcrVbr <|
  act (fun s => s.park) <|
  sleep <|
  act (fun s => s.takeMsg) <|
  ret (.msg .ok)

/-- The micro-steps of `polledWait` (R206): request, read, the two of the yield, READY. -/
def polledWaitSize : Int := 5

/-- The micro-steps of `sleepingWait` (R206): request, park, the two of the sleep, the message. -/
def sleepingWaitSize : Int := 5

/-- RELOAD_WAIT_core (R206). `useWait` is the build's USE_WAIT: the two builds have a pseudocode each, and only the one with
the wait slot branches. -/
def reloadWaitCore (useWait : Bool) (immediate : Word) : Core := fun ret =>
  check (fun s => s.waiter.isNone) .secondWaiter <|
  check (fun s => s.drvState == .ready) .state <|
  act (fun s => { s with drvState := .active }) <|
  if useWait then
    if isTrue immediate then polledWait srcrImr fun v => jump sleepingWaitSize (ret v)
    else jump polledWaitSize (sleepingWait ret)
  else polledWait (requestBit immediate) ret

/-- IS_RELOADING (R204). -/
def execIsReloading (c : Form) (s : State) : Out :=
  command (.isReloading c) (.intSafe c) (fun _ => isReloadingCore) s

/-- START_RELOAD (R205); operand immediate. -/
def execStartReload (c : Form) (s : State) : Out :=
  command (.startReload c) (.intSafe c) (fun o => startReloadCore o.x) s

/-- RELOAD_WAIT (R206); operand immediate. -/
def execReloadWait (c : Form) (s : State) : Out :=
  command (.reloadWait c) (.schedLocked c) (fun o => reloadWaitCore s.par.useWait o.x) s

end Sys2Proof.Machine
end

