-- ==== Sys2Proof/Machine/Dispatch.lean ====
section
/-! DEFINITION. The dispatch of R154 to the meaning of each command, one arm per row of R145. -/

namespace Sys2Proof.Machine

def exec (i : Instr) (s : State) : Host.Outcome State Fault Refusal :=
  match i with
  | .init => Sys2Proof.Machine.execInit s
  | .start c => Sys2Proof.Machine.execStart c s
  | .stop c => Sys2Proof.Machine.execStop c s
  | .isReloading c => Sys2Proof.Machine.execIsReloading c s
  | .startReload c => Sys2Proof.Machine.execStartReload c s
  | .reloadWait c => Sys2Proof.Machine.execReloadWait c s
  | .acquireBus => Sys2Proof.Machine.execAcquireBus s
  | .releaseBus => Sys2Proof.Machine.execReleaseBus s
  | .eventIrq => Sys2Proof.Machine.execEventIrq s
  | .errorIrq => Sys2Proof.Machine.execErrorIrq s
  | .getGlobalFlags c => Sys2Proof.Machine.execGetGlobalFlags c s
  | .setGlobalFlags c => Sys2Proof.Machine.execSetGlobalFlags c s
  | .getClearColor c => Sys2Proof.Machine.execGetClearColor c s
  | .setClearColor c => Sys2Proof.Machine.execSetClearColor c s
  | .getLinePos c => Sys2Proof.Machine.execGetLinePos c s
  | .setLinePos c => Sys2Proof.Machine.execSetLinePos c s
  | .getCurrentPos c => Sys2Proof.Machine.execGetCurrentPos c s
  | .getEnableFlags l c => Sys2Proof.Machine.execGetEnableFlags l c s
  | .setEnableFlags l c => Sys2Proof.Machine.execSetEnableFlags l c s
  | .isLayerEnabled l c => Sys2Proof.Machine.execIsLayerEnabled l c s
  | .enableLayer l c => Sys2Proof.Machine.execEnableLayer l c s
  | .disableLayer l c => Sys2Proof.Machine.execDisableLayer l c s
  | .getPixelFormat l c => Sys2Proof.Machine.execGetPixelFormat l c s
  | .setPixelFormat l c => Sys2Proof.Machine.execSetPixelFormat l c s
  | .getKeyColor l c => Sys2Proof.Machine.execGetKeyColor l c s
  | .setKeyColor l c => Sys2Proof.Machine.execSetKeyColor l c s
  | .isKeyingEnabled l c => Sys2Proof.Machine.execIsKeyingEnabled l c s
  | .enableKeying l c => Sys2Proof.Machine.execEnableKeying l c s
  | .disableKeying l c => Sys2Proof.Machine.execDisableKeying l c s
  | .getConstAlpha l c => Sys2Proof.Machine.execGetConstAlpha l c s
  | .setConstAlpha l c => Sys2Proof.Machine.execSetConstAlpha l c s
  | .getDefaultColor l c => Sys2Proof.Machine.execGetDefaultColor l c s
  | .setDefaultColor l c => Sys2Proof.Machine.execSetDefaultColor l c s
  | .getBlending l c => Sys2Proof.Machine.execGetBlending l c s
  | .setBlending l c => Sys2Proof.Machine.execSetBlending l c s
  | .setPaletteEntry l c => Sys2Proof.Machine.execSetPaletteEntry l c s
  | .setPalette l c => Sys2Proof.Machine.execSetPalette l c s
  | .isPaletteEnabled l c => Sys2Proof.Machine.execIsPaletteEnabled l c s
  | .enablePalette l c => Sys2Proof.Machine.execEnablePalette l c s
  | .disablePalette l c => Sys2Proof.Machine.execDisablePalette l c s
  | .getWindow l c => Sys2Proof.Machine.execGetWindow l c s
  | .setWindow l c => Sys2Proof.Machine.execSetWindow l c s
  | .setInvalidWindow l c => Sys2Proof.Machine.execSetInvalidWindow l c s
  | .getFrame l c => Sys2Proof.Machine.execGetFrame l c s
  | .setFrame l c => Sys2Proof.Machine.execSetFrame l c s
  | .getFrameAddress l c => Sys2Proof.Machine.execGetFrameAddress l c s
  | .setFrameAddress l c => Sys2Proof.Machine.execSetFrameAddress l c s
  | .getLayer l c => Sys2Proof.Machine.execGetLayer l c s
  | .setLayer l c => Sys2Proof.Machine.execSetLayer l c s
  | .bpp => Sys2Proof.Machine.execBpp s
  | .toArgb8888 => Sys2Proof.Machine.execToArgb8888 s
  | .fromArgb8888 => Sys2Proof.Machine.execFromArgb8888 s
  | .pnlObjectInit => Sys2Proof.Machine.execPnlObjectInit s
  | .pnlStart => Sys2Proof.Machine.execPnlStart s
  | .pnlStop => Sys2Proof.Machine.execPnlStop s
  | .pnlAcquireBus => Sys2Proof.Machine.execPnlAcquireBus s
  | .pnlReleaseBus => Sys2Proof.Machine.execPnlReleaseBus s
  | .pnlSelect => Sys2Proof.Machine.execPnlSelect s
  | .pnlUnselect => Sys2Proof.Machine.execPnlUnselect s
  | .pnlWriteCommand => Sys2Proof.Machine.execPnlWriteCommand s
  | .pnlWriteByte => Sys2Proof.Machine.execPnlWriteByte s
  | .pnlReadByte => Sys2Proof.Machine.execPnlReadByte s
  | .pnlWriteChunk => Sys2Proof.Machine.execPnlWriteChunk s
  | .pnlReadChunk => Sys2Proof.Machine.execPnlReadChunk s

end Sys2Proof.Machine
end

