-- ==== Sys2Proof/Machine/Sched.lean ====
section
/-! DEFINITION. Which agent moves, and what its move is (R9, R20, R458, R531, log 1, 2): the issue of a thread's next
command, the running handler and its callback body, the slots of the schedule, and the default policy when the schedule is
empty. -/

namespace Sys2Proof.Machine

/-- Run the running agent's command word: its row's meaning, or the illegal-command fault (R146, R451). -/
def State.execWord (s : State) (w : CmdWord) : Out :=
  match decode w with
  | .instr i => exec i s
  | .illegal _ => s.resume w fun _ => raiseIllegal w

/-- Take the current thread's next command from its program and issue it: `prog[t] = (cmd, 0)` (R31). -/
def State.load (s : State) (i : Issue) (rest : List Item) : State :=
  s.setThread s.cur fun th => { th with prog := some i.fresh, program := rest }

/-- The current thread drops the head of its program. -/
def State.dropItem (s : State) (rest : List Item) : State := s.setThread s.cur fun th => { th with program := rest }

/-- The current thread moves: it goes on with its command, or it issues the next one, or it opens or closes its critical
section (R36). A thread's own lock() and unlock() use up the slot that let it move. -/
def State.runThread (s : State) : Out :=
  match (s.threadAt s.cur).prog with
  | some c => s.execWord c.word
  | none =>
    match (s.threadAt s.cur).program with
    | [] => .fault .quiescent
    | .cmd i :: rest => (s.load i rest).execWord i.word
    | .lock :: rest => .next { (s.dropItem rest).takeLock s.cur with sched := s.sched.tail }
    | .unlock :: rest => .next { (s.dropItem rest).releaseLock s.cur with sched := s.sched.tail }

/-- The running activation moves: its callback's command, the callback's next command, or the handler itself (R465). -/
def State.runHandler (s : State) (a : Activation) (rest : List Activation) : Out :=
  match a.bodyCell with
  | some c => s.execWord c.word
  | none =>
    match a.body with
    | i :: more => ({ s with irq := { a with body := more, bodyCell := some i.fresh } :: rest } : State).execWord i.word
    | [] => s.execWord a.cell.word

/-- The running activation has a step: what its callback's command waits for has come. -/
def State.handlerReady (s : State) (a : Activation) : Bool :=
  match a.bodyCell with
  | some c => match c.wait with
    | some w => s.waitOver (.irq a.vec) w
    | none => true
  | none => true

/-- The running agent has a step. -/
def State.agentReady (s : State) : Bool :=
  match s.irq with
  | a :: _ => s.handlerReady a
  | [] => s.runnable s.cur

/-- The running agent moves. -/
def State.runAgent (s : State) : Out :=
  match s.irq with
  | a :: rest => s.runHandler a rest
  | [] => s.runThread

/-- Make thread `t` the current one. -/
def State.switchTo (s : State) (t : Nat) : State := { s with cur := t }

/-- The first thread that may run and is not at a yield, the current one first. -/
def State.nextThread (s : State) : Option Nat :=
  (s.cur :: List.range s.threads.length).find? fun t => s.runnable t && !s.yielding t

/-- The first thread that may come back from a yield, in turn: from the one after the current thread round to the current one
itself, so that a thread that polls for ever keeps no other from coming back (R131, R206; the order is log 2's). -/
def State.nextYielder (s : State) : Option Nat :=
  ((List.range s.threads.length).map fun k => (s.cur + 1 + k) % s.threads.length).find? fun t => s.runnable t

/-- Some thread still has something to do (R531; its own lock() and unlock() too, log 16). -/
def State.anyUnfinished (s : State) : Bool := (List.range s.threads.length).any fun t => s.unfinished t

/-- The default policy, with no schedule left (log 2): a deliverable interrupt; the running handler; a thread; a thread at a
yield, in turn; a commit. A thread that comes back from a yield with a commit due takes the commit at its next yield
(`pollRelease`), so neither waits for the other for ever (R131, R422; log 29). With none of these the run has ended, in a hang
if something is left to do (R531). An agent that polls for a reload that never commits has a step each time: the model steps for
ever and does not answer hang, though R206 calls it one and R531 (c) names only a hold and a sleep (DESIGN CHOICE, log 16). -/
def State.runDefault (s : State) : Out :=
  if s.deliverable .event then .next (s.enter .event)
  else if s.deliverable .error then .next (s.enter .error)
  else
    match s.irq with
    | a :: rest =>
      if s.handlerReady a then s.runHandler a rest else if s.commitEnabled then .next s.commit else .fault .hang
    | [] =>
      match s.nextThread with
      | some t => (s.switchTo t).runThread
      | none =>
        match s.nextYielder with
        | some t => (s.switchTo t).runThread
        | none =>
          if s.commitEnabled then .next s.commit
          else if s.anyUnfinished then .fault .hang else .fault .quiescent

/-- One turn of the machine: after a fault nothing moves (R452); else the schedule's head says who does (log 2). A slot that
the rules do not enable is passed over. -/
def State.advance (s : State) : Out :=
  if s.fault.isSome then .fault .halted
  else
    match s.sched with
    | [] => s.runDefault
    | .go :: rest => if s.agentReady then s.runAgent else .next { s with sched := rest }
    | .pause :: rest => .next { s with sched := rest }
    | .raster a :: rest => .next { s.rasterStep a with sched := rest }
    | .switch t :: rest => .next { (if s.runnable t then s.switchTo t else s) with sched := rest }
    | .deliver v :: rest => .next { (if s.deliverable v then s.enter v else s) with sched := rest }

/-- The state in which the current thread has just issued the word `w`, with an operand record of zeros, and is to move
next. Without a thread there is one; a thread number out of range becomes 0; another agent's lock is let go. -/
def State.issueWord (s : State) (w : CmdWord) : State :=
  let ts := match s.threads with
    | [] => [Thread.idle]
    | ts => ts
  let t := if s.cur < ts.length then s.cur else 0
  { s with
    threads := ts.modify t fun th => { th with prog := some ⟨w, ⟨0, 0⟩, 0, [], none⟩ }
    cur := t
    irq := []
    fault := none
    lockHolder := if s.lockHolder = some (.thread t) then some (.thread t) else none
    sched := [.go] }

/-- The state in which the handler of `v` has just been entered and is to move next (R459). -/
def State.issueHandler (s : State) (v : Vec) : State :=
  { s with irq := [.entry v], fault := none, sched := [.go] }

end Sys2Proof.Machine
end

