-- ==== Sys2Proof/Machine/Step.lean ====
section
/-! DEFINITION. The step of the machine and the placing of a command where the next step runs it. -/

namespace Sys2Proof.Machine

/-- One turn of the machine (log 1, 2). -/
def step (s : State) : Out := s.advance

/-- `s` with the command word `w` issued as the next thing to run (log 4): by the current thread, or, for the two handler
words, by interrupt entry (log 21). The block fetches nothing (R31): this stands for the host's issue. -/
def State.withFetchWord (s : State) (_nbits w : Nat) : State :=
  if w = 8 then s.issueHandler .event
  else if w = 9 then s.issueHandler .error
  else s.issueWord (BitVec.ofNat 16 w)

end Sys2Proof.Machine
end

