-- ==== Sys2Proof/Safety.lean ====
section
/-! DEFINITION. What a safe run is, and the terms the statements use: the invariant every step keeps, when a command is
about to run undisturbed, its class and context (R142, R145), the records a pointer names (R71 to R74), and the values the
rules give the multi-register commands. -/

namespace Sys2Proof.Machine

-- ==== the invariant ====

/-- `v` has no bit outside `m`. -/
def onlyBits (m v : Word) : Bool := v &&& ~~~m == 0

/-- Every reserved bit of a layer block is 0 (R53 to R63). -/
def LayerRegs.clean (f : LayerRegs) : Bool :=
  onlyBits LReg.cr.writableMask f.cr && onlyBits LReg.whpcr.writableMask f.whpcr
    && onlyBits LReg.wvpcr.writableMask f.wvpcr && onlyBits LReg.ckcr.writableMask f.ckcr
    && onlyBits LReg.pfcr.writableMask f.pfcr && onlyBits LReg.cacr.writableMask f.cacr
    && onlyBits LReg.bfcr.writableMask f.bfcr && onlyBits LReg.cfblr.writableMask f.cfblr
    && onlyBits LReg.cfblnr.writableMask f.cfblnr

/-- Every reserved bit of a register file is 0, and the read-only bits of GCR are DITHER_WIDTHS (R41 to R45, R51). -/
def RegFile.clean (f : RegFile) : Bool :=
  onlyBits hvMask f.sscr && onlyBits hvMask f.bpcr && onlyBits hvMask f.awcr && onlyBits hvMask f.twcr
    && onlyBits (gcrMask ||| gcrRoMask) f.gcr && (f.gcr &&& gcrRoMask == Config.ditherWidths)
    && onlyBits Reg.bccr.writableMask f.bccr && f.l1.clean && f.l2.clean

/-- Every reserved bit of every register is 0 (R40 to R63). -/
def State.regsClean (s : State) : Bool :=
  s.shadow.clean && s.active.clean && onlyBits Reg.srcr.writableMask s.srcr && onlyBits Reg.ier.writableMask s.ier
    && onlyBits 0xF s.isr && onlyBits Reg.lipcr.writableMask s.lipcr

/-- The history holds FAULT (R80). -/
def Event.isFault : Event → Bool
  | .fault _ => true
  | _ => false

/-- The invariant: memory canonical; reserved bits 0; no vector's handler runs twice (R458 c, R462); the fault mark is set
exactly when the history holds FAULT (R452). -/
def State.Inv (s : State) : Prop :=
  s.mem.wf = true ∧ s.regsClean = true ∧ (s.irq.map Activation.vec).Nodup ∧ s.fault.isSome = s.events.any Event.isFault

-- ==== a command about to run ====

/-- The running agent has just issued `i` with operands `o` (R31: step 0), and no other agent is scheduled to move. -/
def State.Issued (s : State) (i : Instr) (o : Operands) : Prop :=
  s.sched = [] ∧ s.curCell = some ⟨encode i, o, 0, [], none⟩

/-- A check passes, or the build has none (R17). -/
def State.Passes (s : State) (b : Bool) : Prop := s.par.checks = false ∨ b = true

/-- A class I command's form runs where it stands (R142, R143): the api form from a THREAD with the lock free, the locked form
from THREAD_LOCKED or ISR, and in a build without checks from any context (R455). -/
def State.MayRunI (s : State) : Form → Prop
  | .api => s.ctx = .thread ∧ s.lockHolder = none
  | .locked => s.Passes (s.ctx != .thread)

/-- A class S command's form runs where it stands (R142, R143): the locked form from a thread that holds the lock, and in a
build without checks from any context, ISR too (R455, R520 a). -/
def State.MayRunS (s : State) : Form → Prop
  | .api => s.ctx = .thread ∧ s.lockHolder = none
  | .locked => s.Passes (s.ctx == .locked && s.lockHolder == some (.thread s.cur))

/-- Who holds the lock after a class S command that has yielded or slept: nobody after the api form, which opened it (R143);
the agent that took it back after the locked form (R206: Y2, S2). -/
def State.lockAfterWait (s : State) : Form → Option Agent
  | .api => none
  | .locked => some s.self

/-- `exec i` returns: the next state is `t` with the running agent's command ended and `v` handed over (R30, R31, R462). -/
def Completes (i : Instr) (s t : State) (v : ResultVal) : Prop := exec i s = .next (t.finish (encode i) v)

/-- The LTDC, the panel and host memory of `t` are those of `s`. -/
def State.SameBlock (t s : State) : Prop :=
  t.shadow = s.shadow ∧ t.active = s.active ∧ t.srcr = s.srcr ∧ t.ier = s.ier ∧ t.isr = s.isr ∧ t.lipcr = s.lipcr
    ∧ t.clutShadow = s.clutShadow ∧ t.clutActive = s.clutActive ∧ t.drvState = s.drvState ∧ t.cfg = s.cfg
    ∧ t.activeWindow = s.activeWindow ∧ t.waiter = s.waiter ∧ t.ltdcOwner = s.ltdcOwner ∧ t.nvicEv = s.nvicEv
    ∧ t.nvicEr = s.nvicEr ∧ t.pnlState = s.pnlState ∧ t.pnlCfg = s.pnlCfg ∧ t.pnlScratch = s.pnlScratch
    ∧ t.pnlOwner = s.pnlOwner ∧ t.cs = s.cs ∧ t.dcx = s.dcx ∧ t.wire = s.wire ∧ t.mem = s.mem

/-- `exec i` raises `code` at micro-step `n` before it has written anything but its own progress and lock (R452, R453): the
mark names the command, the index of the failed check and the agent, FAULT is recorded, and the LTDC, the panel and host
memory are as they were. -/
def FaultsAtStep (i : Instr) (s : State) (n : Nat) (code : FaultCode) (info : Option CmdWord) : Prop :=
  ∃ t, exec i s = .next t ∧ t.fault = some ⟨code, encode i, n, s.self, info⟩ ∧ t.events = s.events ++ [.fault code]
    ∧ t.SameBlock s

/-- `exec i` raises `code` at some micro-step, and leaves the LTDC, the panel, host memory and the event history as in `s'`, but
for FAULT (R453: what was written before the failed check stays). -/
def FaultsLeaving (i : Instr) (s s' : State) (code : FaultCode) (info : Option CmdWord) : Prop :=
  ∃ t n, exec i s = .next t ∧ t.fault = some ⟨code, encode i, n, s.self, info⟩ ∧ t.events = s'.events ++ [.fault code]
    ∧ t.SameBlock s'

/-- `exec i` raises `code` at some micro-step before it has written anything but its own progress and lock. -/
def FaultsAtOnce (i : Instr) (s : State) (code : FaultCode) (info : Option CmdWord) : Prop :=
  ∃ n, FaultsAtStep i s n code info

/-- `exec i` raises `code` after it has written what `Q` says (R453: what was written stays). -/
def FaultsAfter (i : Instr) (s : State) (code : FaultCode) (info : Option CmdWord) (Q : State → Prop) : Prop :=
  ∃ t n, exec i s = .next t ∧ t.fault = some ⟨code, encode i, n, s.self, info⟩ ∧ Q t

-- ==== who moves next ====

/-- The next step is thread `t`'s (R20, R36): no fault, no handler; and the schedule's head lets the current thread, `t`, move and
it may; or the schedule is empty, no interrupt is deliverable, and the default policy (log 2) picks `t`, coming back from a
yield or not. -/
def State.ThreadMoves (s : State) (t : Nat) : Prop :=
  s.fault = none ∧ s.irq = [] ∧
    (((∃ r, s.sched = .go :: r) ∧ s.cur = t ∧ s.runnable t = true)
      ∨ (s.sched = [] ∧ s.deliverable .event = false ∧ s.deliverable .error = false
        ∧ (s.nextThread = some t ∨ (s.nextThread = none ∧ s.nextYielder = some t))))

/-- The next step is that of the running activation `a`, over what it preempted (R459): no fault; what its callback's command
waits for has come; and the schedule's head lets it move, or the schedule is empty and no interrupt is deliverable (log 2). -/
def State.HandlerMoves (s : State) (a : Activation) (below : List Activation) : Prop :=
  s.fault = none ∧ s.irq = a :: below ∧ s.handlerReady a = true ∧
    ((∃ r, s.sched = .go :: r) ∨ (s.sched = [] ∧ s.deliverable .event = false ∧ s.deliverable .error = false))

/-- The progress cell of a RELOAD_WAIT asleep in its deferred wait (R206): at the second micro-step of its sleep, 11 in the
core, after the dispatch's 2 micro-steps and the api form's lock; every local variable so far is 0 (log 3). -/
def parkedCell (c : Form) (o : Operands) (w : Option Wait) : Cell :=
  match c with
  | .api => ⟨encode (.reloadWait c), o, 14, List.replicate 10 0, w⟩
  | .locked => ⟨encode (.reloadWait c), o, 13, List.replicate 9 0, w⟩

end Sys2Proof.Machine

namespace Sys2Proof

/-- The class of each command (R145). The two handler words have none here: software may not issue them (R146 e). -/
def Instr.cls : Instr → Option Machine.CmdClass
  | .eventIrq => none
  | .errorIrq => none
  | .init => some .init
  | .pnlObjectInit => some .init
  | .bpp => some .pure
  | .toArgb8888 => some .pure
  | .fromArgb8888 => some .pure
  | .start c => some (.schedLocked c)
  | .stop c => some (.schedLocked c)
  | .reloadWait c => some (.schedLocked c)
  | .isReloading c => some (.intSafe c)
  | .startReload c => some (.intSafe c)
  | .acquireBus => some .api
  | .releaseBus => some .api
  | .pnlStart => some .api
  | .pnlStop => some .api
  | .pnlAcquireBus => some .api
  | .pnlReleaseBus => some .api
  | .pnlSelect => some .api
  | .pnlUnselect => some .api
  | .pnlWriteCommand => some .api
  | .pnlWriteByte => some .api
  | .pnlReadByte => some .api
  | .pnlWriteChunk => some .api
  | .pnlReadChunk => some .api
  | .getGlobalFlags c => some (.intSafe c)
  | .setGlobalFlags c => some (.intSafe c)
  | .getClearColor c => some (.intSafe c)
  | .setClearColor c => some (.intSafe c)
  | .getLinePos c => some (.intSafe c)
  | .setLinePos c => some (.intSafe c)
  | .getCurrentPos c => some (.intSafe c)
  | .getEnableFlags _ c => some (.intSafe c)
  | .setEnableFlags _ c => some (.intSafe c)
  | .isLayerEnabled _ c => some (.intSafe c)
  | .enableLayer _ c => some (.intSafe c)
  | .disableLayer _ c => some (.intSafe c)
  | .getPixelFormat _ c => some (.intSafe c)
  | .setPixelFormat _ c => some (.intSafe c)
  | .getKeyColor _ c => some (.intSafe c)
  | .setKeyColor _ c => some (.intSafe c)
  | .isKeyingEnabled _ c => some (.intSafe c)
  | .enableKeying _ c => some (.intSafe c)
  | .disableKeying _ c => some (.intSafe c)
  | .getConstAlpha _ c => some (.intSafe c)
  | .setConstAlpha _ c => some (.intSafe c)
  | .getDefaultColor _ c => some (.intSafe c)
  | .setDefaultColor _ c => some (.intSafe c)
  | .getBlending _ c => some (.intSafe c)
  | .setBlending _ c => some (.intSafe c)
  | .setPaletteEntry _ c => some (.intSafe c)
  | .setPalette _ c => some (.intSafe c)
  | .isPaletteEnabled _ c => some (.intSafe c)
  | .enablePalette _ c => some (.intSafe c)
  | .disablePalette _ c => some (.intSafe c)
  | .getWindow _ c => some (.intSafe c)
  | .setWindow _ c => some (.intSafe c)
  | .setInvalidWindow _ c => some (.intSafe c)
  | .getFrame _ c => some (.intSafe c)
  | .setFrame _ c => some (.intSafe c)
  | .getFrameAddress _ c => some (.intSafe c)
  | .setFrameAddress _ c => some (.intSafe c)
  | .getLayer _ c => some (.intSafe c)
  | .setLayer _ c => some (.intSafe c)

end Sys2Proof

namespace Sys2Proof.Machine

/-- The contexts a class admits (R142, R145, R455). -/
def CmdClass.admits : CmdClass → Ctx → Bool
  | .init, _ => true
  | .pure, _ => true
  | .api, x => x == .thread
  | .schedLocked .api, x => x == .thread
  | .intSafe .api, x => x == .thread
  | .schedLocked .locked, x => x == .locked
  | .intSafe .locked, x => x != .thread

/-- The classes whose api form opens a critical section (R143, R145). -/
def CmdClass.takesLock : CmdClass → Bool
  | .schedLocked .api => true
  | .intSafe .api => true
  | _ => false

end Sys2Proof.Machine

namespace Sys2Proof

/-- The panel framer's commands (R395). -/
def Instr.isPanel (i : Instr) : Bool := decide (0x80 ≤ opField (encode i))

/-- The commands that write host memory: the three getters with a result record, and the panel's read chunk (R16). -/
def Instr.writesMemory : Instr → Bool
  | .getWindow _ _ => true
  | .getFrame _ _ => true
  | .getLayer _ _ => true
  | .pnlReadChunk => true
  | _ => false

end Sys2Proof

namespace Sys2Proof.Machine

/-- The drv_state transitions of R32 and R212, and staying. -/
def DrvState.mayBecome : DrvState → DrvState → Bool
  | .uninit, .stop => true
  | .stop, .ready => true
  | .ready, .active => true
  | .active, .ready => true
  | .ready, .stop => true
  | a, b => a == b

end Sys2Proof.Machine

namespace Sys2Proof

/-- The commands that can commit, or reset the registers, themselves (R200 to R206): every other leaves the active copies. -/
def Instr.reloads : Instr → Bool
  | .init => true
  | .start _ => true
  | .stop _ => true
  | .reloadWait _ => true
  | _ => false

end Sys2Proof

namespace Sys2Proof.Machine

-- ==== the records a pointer names ====

/-- The Window record at `p` (R72). -/
def windowAt (m : Mem) (p : Word) : WindowD := ⟨m.readLe p 2, m.readLe (p + 2) 2, m.readLe (p + 4) 2, m.readLe (p + 6) 2⟩

/-- The Frame record at `p` (R71). -/
def frameAt (m : Mem) (p : Word) : FrameD :=
  ⟨m.readLe p 4, m.readLe (p + 4) 2, m.readLe (p + 6) 2, m.readLe (p + 8) 4, m.readLe (p + 12) 4⟩

/-- The LayerSpec record at `p`, the default specification for a null pointer (R73, R336). -/
def specAt (m : Mem) (p : Word) : LayerSpecD :=
  if p = 0 then defaultSpec
  else
    { frame := frameAt m p
      window := windowAt m (p + 16)
      defColor := m.readLe (p + 24) 4
      keyColor := m.readLe (p + 28) 4
      constAlpha := m.readLe (p + 32) 1
      palLen := m.readLe (p + 34) 2
      palPtr := m.readLe (p + 36) 4
      blending := m.readLe (p + 40) 4
      flags := m.readLe (p + 44) 4 }

/-- The Config record at `p` (R74). -/
def configAt (m : Mem) (p : Word) : ConfigD :=
  { screenWidth := m.readLe p 2
    screenHeight := m.readLe (p + 2) 2
    hsyncWidth := m.readLe (p + 4) 2
    vsyncHeight := m.readLe (p + 6) 2
    hbpWidth := m.readLe (p + 8) 2
    vbpHeight := m.readLe (p + 10) 2
    hfpWidth := m.readLe (p + 12) 2
    vfpHeight := m.readLe (p + 14) 2
    flags := m.readLe (p + 16) 4
    clearColor := m.readLe (p + 20) 4
    bgSpec := m.readLe (p + 24) 4
    fgSpec := m.readLe (p + 28) 4
    lineCb := m.readLe (p + 32) 4
    rrCb := m.readLe (p + 36) 4
    fuCb := m.readLe (p + 40) 4
    terrCb := m.readLe (p + 44) 4 }

-- ==== what the multi-register commands ask and write ====

/-- Every check of the timing programmer passes (R208). -/
def timingsOk (c : ConfigD) : Bool :=
  inRange c.hsyncWidth 1 4096 && inRange c.vsyncHeight 1 2048
    && inRange c.hbpWidth 0 4095 && inRange c.vbpHeight 0 2047
    && inRange (c.hsyncWidth - 1 + c.hbpWidth) 0 4095 && inRange (c.vsyncHeight - 1 + c.vbpHeight) 0 2047
    && inRange c.screenWidth 1 4096 && inRange c.screenHeight 1 2048
    && inRange (c.hsyncWidth - 1 + c.hbpWidth + c.screenWidth) 0 4095
    && inRange (c.vsyncHeight - 1 + c.vbpHeight + c.screenHeight) 0 2047
    && inRange c.hfpWidth 0 4095 && inRange c.vfpHeight 0 2047
    && inRange (c.hsyncWidth - 1 + c.hbpWidth + c.screenWidth + c.hfpWidth) 0 4095
    && inRange (c.vsyncHeight - 1 + c.vbpHeight + c.screenHeight + c.vfpHeight) 0 2047

/-- The checks of a window against the active window (R316), on u32. -/
def windowOk (a : ActiveWindow) (w : WindowD) : Bool :=
  decide (a.hs ≤ w.hstart + a.hs) && decide (w.hstop + a.hs ≤ a.he) && decide (a.vs ≤ w.vstart + a.vs)
    && decide (w.vstop + a.vs ≤ a.ve)

/-- The checks of a frame against a screen size (R326): width, height, bytes in a line, lines, pitch. -/
def frameOk (sw sh : Word) (f : FrameD) : Bool :=
  decide (f.fmt ≤ 7) && decide (f.width ≤ sw) && decide (f.height ≤ sh) && decide (bytesPp f.fmt * f.width ≤ 8188)
    && decide (f.height ≤ 2047) && decide (bytesPp f.fmt * f.width ≤ f.pitch)

/-- The registers of a layer after the window setter (R316). -/
def LayerRegs.withWindow (r : LayerRegs) (a : ActiveWindow) (w : WindowD) : LayerRegs :=
  { r with
    whpcr := packWh (w.hstart + a.hs) (w.hstop + a.hs)
    wvpcr := packWv (w.vstart + a.vs) (w.vstop + a.vs) }

/-- The registers of a layer after the frame setter (R326). -/
def LayerRegs.withFrame (r : LayerRegs) (f : FrameD) : LayerRegs :=
  { r with
    pfcr := f.fmt &&& 0x7
    cfbar := f.addr
    cfblr := packCfblr f.pitch (bytesPp f.fmt * f.width)
    cfblnr := f.height &&& 0x7FF }

/-- The registers of a layer after the whole-layer setter (R336). -/
def LayerRegs.withSpec (r : LayerRegs) (a : ActiveWindow) (d : LayerSpecD) : LayerRegs :=
  { (r.withFrame d.frame).withWindow a d.window with
    dccr := d.defColor
    ckcr := d.keyColor &&& 0x00FFFFFF#32
    cacr := d.constAlpha &&& 0xFF
    bfcr := d.blending &&& 0x0707
    cr := d.flags &&& 0x13 }

/-- A layer's palette after loading `n` words from `p` in index order (R306): word `j`'s low 24 bits go to slot `j mod 256`. -/
def loadedPalette (m : Mem) (p : Word) (n : Nat) (old : Vector Rgb Config.clutLen) : Vector Rgb Config.clutLen :=
  (List.range n).foldl
    (fun v j => v.setIfInBounds (j % 256) ((m.readLe (p + BitVec.ofNat 32 (4 * j)) 4).truncate 24)) old

/-- The state with layer `l`'s shadow registers replaced (R67). -/
def State.putLayer (s : State) (l : Layer) (r : LayerRegs) : State := { s with shadow := s.shadow.setLayer l r }

/-- Layer `l`'s shadow registers. -/
def State.lay (s : State) (l : Layer) : LayerRegs := s.shadow.layer l

/-- The state with layer `l`'s shadow palette replaced (R65). -/
def State.putPalette (s : State) (l : Layer) (v : Vector Rgb Config.clutLen) : State :=
  { s with clutShadow := s.clutShadow.setLayer l v }

/-- The layer's palette after a whole-layer write of `d` (R336): loaded when the specification has one. -/
def State.putSpecPalette (s : State) (l : Layer) (d : LayerSpecD) : State :=
  if d.palPtr = 0 then s
  else s.putPalette l (loadedPalette s.mem d.palPtr d.palLen.toNat (s.clutShadow.layer l))

/-- The state after a whole-layer write of `d` (R336). -/
def State.putSpec (s : State) (l : Layer) (d : LayerSpecD) : State :=
  (s.putSpecPalette l d).putLayer l ((s.lay l).withSpec s.activeWindow d)

/-- Every check of a whole-layer write passes (R336): frame, window, and for a palette the layer disabled and the length. -/
def specOk (sw sh : Word) (a : ActiveWindow) (cr : Word) (d : LayerSpecD) : Bool :=
  frameOk sw sh d.frame && windowOk a d.window && (d.palPtr == 0 || (cr &&& 1 == 0 && decide (d.palLen ≤ 256)))

/-- A specification pointer whose record can be read: null, or aligned and not wrapping to address 0 (R105, R314, log 20). -/
def recordReadable (p : Word) : Bool := p == 0 || (aligned4 p && (p + 16 != 0))

/-- A specification whose record and palette can be read: the palette is aligned, or has no entry (R105, R306, R314). -/
def specReadable (m : Mem) (p : Word) : Bool :=
  recordReadable p && ((specAt m p).palLen == 0 || aligned4 (specAt m p).palPtr)

/-- The first check of a whole-layer write of `d` that fails on a screen of `sw` by `sh`, and what is written before it (R326,
R316, R336, R306): format and frame nothing, the window after the frame registers, the palette after all but LxCR. -/
def State.specFault (s : State) (l : Layer) (sw sh : Word) (d : LayerSpecD) : Option (FaultCode × State) :=
  let beforePalette := s.putLayer l { (s.lay l).withSpec s.activeWindow d with cr := (s.lay l).cr }
  if ¬d.frame.fmt ≤ 7 then some (.range, s)
  else if frameOk sw sh d.frame = false then some (.geometry, s)
  else if windowOk s.activeWindow d.window = false then some (.window, s.putLayer l ((s.lay l).withFrame d.frame))
  else if d.palPtr ≠ 0 ∧ (s.lay l).cr &&& 1 ≠ 0 then some (.layerEnabled, beforePalette)
  else if d.palPtr ≠ 0 ∧ ¬d.palLen ≤ 256 then some (.range, beforePalette)
  else none

/-- The Window record of a layer, relative to the active window (R315). -/
def windowOf (a : ActiveWindow) (r : LayerRegs) : WindowD :=
  ⟨whst r.whpcr - a.hs, whsp r.whpcr - a.hs, wvst r.wvpcr - a.vs, wvsp r.wvpcr - a.vs⟩

/-- Host memory after a Window record is written at `q` (R72, R315). -/
def Mem.putWindow (m : Mem) (q : Word) (w : WindowD) : Mem :=
  (((m.writeLe q 2 w.hstart).writeLe (q + 2) 2 w.hstop).writeLe (q + 4) 2 w.vstart).writeLe (q + 6) 2 w.vstop

/-- The Frame record of a layer (R325). -/
def frameOf (r : LayerRegs) : FrameD :=
  ⟨r.cfbar, lineBytes r.cfblr / bytesPp (r.pfcr &&& 0x7), r.cfblnr &&& 0x7FF, cfbp r.cfblr, r.pfcr &&& 0x7⟩

/-- Host memory after a Frame record is written at `q` (R71, R325). -/
def Mem.putFrame (m : Mem) (q : Word) (f : FrameD) : Mem :=
  ((((m.writeLe q 4 f.addr).writeLe (q + 4) 2 f.width).writeLe (q + 6) 2 f.height).writeLe (q + 8) 4 f.pitch).writeLe
    (q + 12) 4 f.fmt

/-- Host memory after GET_LAYER writes its LayerSpec record at `q` (R73, R335); byte 33 is padding and is not written. -/
def Mem.putLayerSpec (m : Mem) (q : Word) (a : ActiveWindow) (r : LayerRegs) : Mem :=
  (((((((((m.putFrame q (frameOf r)).putWindow (q + 16) (windowOf a r)).writeLe (q + 24) 4 r.dccr).writeLe
    (q + 28) 4 (r.ckcr &&& 0x00FFFFFF#32)).writeLe (q + 32) 1 (r.cacr &&& 0xFF)).writeLe (q + 34) 2 0).writeLe
    (q + 36) 4 0).writeLe (q + 40) 4 (r.bfcr &&& 0x0707)).writeLe (q + 44) 4 (r.cr &&& 0x13))

/-- GCR after the configuration flags are replaced (R45, R202, R261): LTDCEN and the read-only bits stay. -/
def gcrWithFlags (g flags : Word) : Word := (g &&& 0x7771#32) ||| (flags &&& 0xF0010000#32)

/-- An immediate reload seen from its caller (R201, R206): the request, then the commit. -/
def State.immediateReload (s : State) : State := (s.regWrite .srcr 1).commit

/-- The state when START has taken the configuration `c` at `p`, turned the controller off, committed, and programmed the timings,
the global flags and the clear colour (R202, R208): the layers come next. -/
def State.timed (s : State) (p : Word) (c : ConfigD) : State :=
  let ah := c.hsyncWidth - 1 + c.hbpWidth
  let av := c.vsyncHeight - 1 + c.vbpHeight
  let s1 := { s with cfg := p, ier := 0, shadow := { s.shadow with gcr := s.shadow.gcr &&& 0xF0017770#32 } }.immediateReload
  { s1 with
    shadow :=
      { s1.shadow with
        sscr := packHv (c.hsyncWidth - 1) (c.vsyncHeight - 1)
        bpcr := packHv ah av
        awcr := packHv (ah + c.screenWidth) (av + c.screenHeight)
        twcr := packHv (ah + c.screenWidth + c.hfpWidth) (av + c.screenHeight + c.vfpHeight)
        gcr := gcrWithFlags s1.shadow.gcr c.flags
        bccr := c.clearColor &&& 0x00FFFFFF#32 }
    activeWindow :=
      ⟨(ah + 1).truncate 16, (ah + c.screenWidth).truncate 16, (av + 1).truncate 16, (av + c.screenHeight).truncate 16⟩ }

/-- The state START leaves before its return (R202), from the configuration `c` at `p` and the two layer specifications. -/
def State.started (s : State) (p : Word) (c : ConfigD) (bg fg : LayerSpecD) : State :=
  let s3 :=
    { ((s.timed p c).putSpec .l1 bg).putSpec .l2 fg with nvicEv := true, nvicEr := true, ier := irqMask c }.immediateReload
  let s4 := { s3 with shadow := { s3.shadow with gcr := s3.shadow.gcr ||| 1 } }.immediateReload
  { s4 with drvState := .ready }

-- ==== what a handler serves ====

/-- The flags of `f` are cleared (R49). -/
def State.acked (s : State) (f : Word) : State := { s with isr := s.isr &&& ~~~f }

/-- The line path of the event handler, its callback's body empty (R460). -/
def State.servedLine (s : State) : State := (s.addEvent (.cb .line)).acked 1

/-- The reload-done path of the event handler after its callback (R460): wake, READY, acknowledge. -/
def State.reloadCompleted (s : State) : State :=
  match s.waiter with
  | none => { s.acked 8 with drvState := .ready }
  | some a => { (s.setWake a (some .ok)).acked 8 with events := s.events ++ [.wake a .ok], waiter := none, drvState := .ready }

/-- The callback id at offset `off` of the borrowed configuration (R35, R74). -/
def State.callbackId (s : State) (off : Word) : Word := s.mem.readLe (s.cfg + off) 4

/-- The reload-done path of the event handler, its callback's body empty (R460): callback, wake, READY, acknowledge. -/
def State.servedReload (s : State) : State :=
  (if s.callbackId 36 = 0 then s else s.addEvent (.cb .reload)).reloadCompleted

/-- The underrun path of the error handler, its callback's body empty (R461). -/
def State.servedUnderrun (s : State) : State := (s.addEvent (.cb .underrun)).acked 2

/-- The transfer-error path of the error handler, its callback's body empty (R461). -/
def State.servedTerr (s : State) : State := (s.addEvent (.cb .terr)).acked 4

/-- The callback at offset `off` can be called and has an empty body (R461, R465). -/
def State.QuietCallback (s : State) (off : Word) : Prop := s.callbackId off ≠ 0 ∧ s.cbBody (s.callbackId off) = []

/-- The interrupt agent has just entered the handler of `v` (R459), over what it preempted, and nothing is scheduled. -/
def State.Entered (s : State) (v : Vec) (below : List Activation) : Prop :=
  s.sched = [] ∧ s.irq = .entry v :: below

/-- The handler of `v` at micro-step `n`, its locals' values `log`, the newest first (numbering and log: log 3), no command of its
callback running, and the commands `body` of it still to issue. -/
def handlerAt (v : Vec) (n : Nat) (log : List Word) (body : List Issue) : Activation :=
  ⟨v, ⟨v.word, ⟨0, 0⟩, n, log, none⟩, false, body, none⟩

/-- What a handler's first branch adds to the log (log 3): 7 values when the flag is sampled, its callback `cb` the oldest, else
the jump's. -/
def branchLog (sample flag cb : Word) : List Word := if hasBits sample flag then [0, 0, 0, 0, 0, 0, cb] else [0]

/-- The callback at offset `off` has just been called (R460, R461, R465): it is recorded, and the handler of `v` stands at
micro-step `n`, after the body's, with the body's commands to issue; nothing else has changed. -/
def State.called (s : State) (v : Vec) (k : CbKind) (off : Word) (n : Nat) (log : List Word) (below : List Activation) : State :=
  { s.addEvent (.cb k) with irq := handlerAt v n log (s.cbBody (s.callbackId off)) :: below }

/-- The state after `n` bytes are received (R381): `n` RX entries framed with the present levels, `n` draws used. -/
def State.receiveN (s : State) (n : Nat) : State :=
  { s with
    wire := s.wire ++ (List.range n).map fun j => ⟨.rx, s.dcx, s.cs, Config.spiRx (s.draws + j)⟩
    draws := s.draws + n }

/-- The bytes of a chunk in host memory, the lowest address first (R103). -/
def bytesAt (m : Mem) (buf : Word) (n : Nat) : List Byte := (List.range n).map fun j => m.byteAt (buf + BitVec.ofNat 32 j)

/-- Host memory after bytes are stored from `buf` upward (R103, R393). -/
def Mem.storeBytes : Mem → Word → List Byte → Mem
  | m, _, [] => m
  | m, a, b :: rest => Mem.storeBytes (m.set a.toNat b) (a + 1) rest

end Sys2Proof.Machine
end

