-- ==== Sys2Proof/Certificates/Slice0/Obligations.lean ====
section
/-! DEFINITION. The statements for the provers. A completion statement says: the command, just issued in a context its class
admits, or without checks where R455 lets it run, and with nothing else scheduled, returns, and the next state is the one
named, whole. What that state does not change is unchanged: the equation is the frame. Where a statement rests on a choice
of the model its docstring names the log. -/

open Sys2Proof Sys2Proof.Machine

-- ==== encoding ====

/-- R145, R152: every command's word decodes to it, with every L and C it admits. -/
def Obligations.EncodeDecodes : Prop := ∀ i : Instr, decode (encode i) = .instr i

/-- R145, R146: a word that decodes is the one word of its command. -/
def Obligations.DecodeIsInjective : Prop := ∀ (w : CmdWord) (i : Instr), decode w = .instr i → encode i = w

/-- R140 to R145: some words written out from the spec's encoding. -/
def Obligations.SampleWordsDecode : Prop :=
  decode 0x0000 = .instr .init ∧ decode 0x0201 = .instr (.start .locked) ∧ decode 0x0338 = .instr (.setWindow .l2 .locked)
    ∧ decode 0x0133 = .instr (.setPalette .l2 .api) ∧ decode 0x0041 = .instr .toArgb8888
    ∧ decode 0x0087 = .instr .pnlWriteCommand ∧ decode 0x0211 = .instr (.setGlobalFlags .locked)
    ∧ decode 0x0008 = .instr .eventIrq

/-- R146 (a) to (d), R147: a word is refused by the decoder exactly when a reserved bit is 1, its OP is in none of the
ranges of R144, L = 1 outside the per-layer operations, or C = 1 where the C column lists only 0. -/
def Obligations.DecoderRefusesExactlyTheReserved : Prop :=
  ∀ w : CmdWord,
    (∃ e, decode w = .illegal e) ↔
      (w &&& 0xFC00 ≠ 0
        ∨ (0x09 < opField w ∧ opField w < 0x10) ∨ (0x16 < opField w ∧ opField w < 0x20)
        ∨ (0x42 < opField w ∧ opField w < 0x80) ∨ 0x8B < opField w
        ∨ (w.getLsbD 8 = true ∧ ¬(0x20 ≤ opField w ∧ opField w ≤ 0x3F))
        ∨ (w.getLsbD 9 = true ∧ ¬((0x01 ≤ opField w ∧ opField w ≤ 0x05) ∨ (0x10 ≤ opField w ∧ opField w ≤ 0x3F))))

/-- R147: an OP outside R145 is illegal in every word that holds it, and the thread that issues it faults with
F_ILLEGAL_COMMAND, whatever CHECKS is; it never executes as a no-op. -/
def Obligations.ReservedOpNeverExecutes : Prop :=
  ∀ (w : CmdWord) (s : State) (o : Operands),
    (0x09 < opField w ∧ opField w < 0x10) ∨ (0x16 < opField w ∧ opField w < 0x20)
        ∨ (0x42 < opField w ∧ opField w < 0x80) ∨ 0x8B < opField w →
      s.sched = [] → s.curCell = some ⟨w, o, 0, [], none⟩ →
        s.execWord w = .next (s.raise ⟨w, o, 0, [], none⟩ .illegalCommand (some w))

-- ==== the step ====

/-- R20, R31, R459, R465: the step runs the decoded instruction, whether the schedule names the agent or, with the schedule
empty, the default policy does (ThreadMoves, HandlerMoves; log 2). (1) The thread that moves has a command under way: exec of
it. (2) It is IDLE: its next command is issued with its operand record at step 0, and run. (3) A handler moves: exec of its
word. (4) A handler's callback has a command under way: exec of it. (5) A handler waits for a callback body: the body's next
command is issued, and run. -/
def Obligations.StepRunsTheDecodedCommand : Prop :=
  (∀ (s : State) (t : Nat) (c : Cell) (i : Instr),
    s.ThreadMoves t → (s.threadAt t).prog = some c → decode c.word = .instr i → step s = exec i (s.switchTo t))
  ∧ (∀ (s : State) (t : Nat) (w : CmdWord) (o : Operands) (rest : List Item) (i : Instr),
    s.ThreadMoves t → (s.threadAt t).prog = none → (s.threadAt t).program = .cmd ⟨w, o⟩ :: rest → decode w = .instr i →
      step s = exec i ((s.switchTo t).setThread t fun th => { th with prog := some ⟨w, o, 0, [], none⟩, program := rest }))
  ∧ (∀ (s : State) (a : Activation) (below : List Activation) (i : Instr),
    s.HandlerMoves a below → a.bodyCell = none → a.body = [] → decode a.cell.word = .instr i → step s = exec i s)
  ∧ (∀ (s : State) (a : Activation) (below : List Activation) (c : Cell) (i : Instr),
    s.HandlerMoves a below → a.bodyCell = some c → decode c.word = .instr i → step s = exec i s)
  ∧ ∀ (s : State) (a : Activation) (below : List Activation) (w : CmdWord) (o : Operands) (more : List Issue) (i : Instr),
    s.HandlerMoves a below → a.bodyCell = none → a.body = ⟨w, o⟩ :: more → decode w = .instr i →
      step s = exec i { s with irq := { a with body := more, bodyCell := some ⟨w, o, 0, [], none⟩ } :: below }

/-- R36: a thread that moves, is IDLE and has its own lock() or unlock() next takes the lock into THREAD_LOCKED, or gives it up
into THREAD; the item is used up, with the schedule's slot if there is one (log 2), and nothing else changes. A lock() does not
move while the lock has a holder. That an unlock() by a thread that does not hold the lock has the same effect is the model's
choice (log 25). -/
def Obligations.OwnLockAndUnlock : Prop :=
  ∀ (s : State) (t : Nat) (rest : List Item), (s.threadAt t).prog = none →
    (s.ThreadMoves t → (s.threadAt t).program = .lock :: rest →
      step s = .next
        { s with
          cur := t
          sched := s.sched.tail
          lockHolder := some (.thread t)
          threads := s.threads.modify t fun th => { th with program := rest, locked := true } })
    ∧ (s.ThreadMoves t → (s.threadAt t).program = .unlock :: rest →
      step s = .next
        { s with
          cur := t
          sched := s.sched.tail
          lockHolder := none
          threads := s.threads.modify t fun th => { th with program := rest, locked := false } })
    ∧ ((s.threadAt t).program = .lock :: rest → s.lockHolder ≠ none → s.runnable t = false)

/-- R38, R452, R453: raising a fault sets the mark, with the cell's step as the index of the failed check, and appends FAULT,
and changes nothing else but where the progress cell is kept; and with the mark set no agent takes any further step. -/
def Obligations.FaultEntryAndHalt : Prop :=
  ∀ s : State,
    (∀ (c : Cell) (e : FaultCode) (info : Option CmdWord),
      s.raise c e info
        = { s.suspend c with
            fault := some ⟨e, c.word, c.step, s.self, info⟩
            events := s.events ++ [.fault e] })
    ∧ (s.fault ≠ none → step s = .fault .halted)

/-- The invariant of Safety: memory canonical (log 10), reserved register bits 0 and GCR's read-only bits DITHER_WIDTHS
(R40 to R63), no vector's handler active twice (R458, R462), the fault mark set exactly when FAULT is recorded (R452).
Every step from every state that has it keeps it, whatever the schedule. -/
def Obligations.InvariantKept : Prop := ∀ s t : State, s.Inv → step s = .next t → t.Inv

/-- The reset state has the invariant. Its registers are the model's choice where the spec has a draw (log 5). -/
def Obligations.InvariantAtReset : Prop := State.reset.Inv

/-- R83, R500: what the spec states of power-on. -/
def Obligations.PowerOnState : Prop :=
  State.reset.drvState = .uninit ∧ State.reset.pnlState = .absent ∧ State.reset.lockHolder = none
    ∧ State.reset.fault = none ∧ State.reset.nvicEv = false ∧ State.reset.nvicEr = false ∧ State.reset.wire = []
    ∧ State.reset.events = [] ∧ State.reset.cs = .unknown ∧ State.reset.dcx = .unknown
    ∧ ∀ th ∈ State.reset.threads, th.locked = false ∧ th.wakeMsg = none ∧ th.prog = none

-- ==== contexts ====

/-- R142, R145, R154, R455: with CHECKS, a command issued from a context its class does not admit faults with F_CONTEXT at
micro-step 1, before its core. That the mark has no info is the model's choice (log 33). -/
def Obligations.WrongContextFaults : Prop :=
  ∀ (i : Instr) (cl : CmdClass) (o : Operands) (s : State),
    s.Issued i o → i.presentIn s.par.useMutex = true → i.cls = some cl → cl.admits s.ctx = false → s.par.checks = true →
      exec i s = .next (s.raise ⟨encode i, o, 1, [0], none⟩ .context none)

/-- R455: with CHECKS false, an api form that opens a critical section is stuck when it is issued from THREAD_LOCKED or
ISR. -/
def Obligations.ApiFormStuckWithoutChecks : Prop :=
  ∀ (i : Instr) (cl : CmdClass) (o : Operands) (s : State),
    s.Issued i o → i.cls = some cl → cl.takesLock = true → s.ctx ≠ .thread → s.par.checks = false →
      exec i s = .fault .lockNotAdmitted

/-- R36, R143: an api form that opens a critical section holds while another thread has the lock; nothing else changes. That
the lock is micro-step 2 is the model's numbering (log 3). -/
def Obligations.ApiFormWaitsForTheLock : Prop :=
  ∀ (i : Instr) (cl : CmdClass) (o : Operands) (s : State),
    s.Issued i o → i.cls = some cl → cl.takesLock = true → s.ctx = .thread → s.lockHolder ≠ none →
      exec i s = .next (s.suspend ⟨encode i, o, 2, [0, 0], some .lock⟩)

/-- R146 (e), (f), R451: a handler's word issued by software, that is by a thread or by a callback body, and a mutex word in a
build without the mutex, fault with F_ILLEGAL_COMMAND and the word as info, whatever CHECKS is. -/
def Obligations.IllegalForTheIssuerFaults : Prop :=
  (∀ (v : Vec) (o : Operands) (s : State), s.sched = [] → (∀ a below, s.irq = a :: below → a.bodyCell ≠ none) →
    s.curCell = some ⟨v.word, o, 0, [], none⟩ →
    s.execWord v.word = .next (s.raise ⟨v.word, o, 0, [], none⟩ .illegalCommand (some v.word)))
  ∧ ∀ (i : Instr) (o : Operands) (s : State), i = .acquireBus ∨ i = .releaseBus → s.Issued i o → s.par.useMutex = false →
    exec i s = .next (s.raise ⟨encode i, o, 0, [], none⟩ .illegalCommand (some (encode i)))

-- ==== interrupts ====

/-- R39, R426, R458: when delivery of the event vector is enabled; and of the error vector. -/
def Obligations.DeliveryConditions : Prop :=
  ∀ s : State,
    (s.canDeliver .event = true ↔
      s.fault = none ∧ s.lockHolder = none ∧ s.nvicEv = true ∧ s.isr &&& s.ier &&& 0x9 ≠ 0
        ∧ (∀ a ∈ s.irq, a.vec ≠ .event) ∧ ∀ a ∈ s.irq.head?, s.par.evPrio < s.prio a.vec ∧ a.crit = false)
    ∧ (s.canDeliver .error = true ↔
      s.fault = none ∧ s.lockHolder = none ∧ s.nvicEr = true ∧ s.isr &&& s.ier &&& 0x6 ≠ 0
        ∧ (∀ a ∈ s.irq, a.vec ≠ .error) ∧ ∀ a ∈ s.irq.head?, s.par.erPrio < s.prio a.vec ∧ a.crit = false)
    ∧ (s.deliverable .event = true ↔
      s.canDeliver .event = true ∧ ¬(s.canDeliver .error = true ∧ s.par.erPrio < s.par.evPrio))
    ∧ (s.deliverable .error = true ↔
      s.canDeliver .error = true ∧ ¬(s.canDeliver .event = true ∧ s.par.evPrio ≤ s.par.erPrio))

/-- R459: entry starts a new activation at step 0 in context ISR and changes nothing else; no thread is runnable then. The
step that delivers does exactly this. -/
def Obligations.EntrySavesNothing : Prop :=
  ∀ (s : State) (v : Vec),
    s.enter v = { s with irq := ⟨v, ⟨v.word, ⟨0, 0⟩, 0, [], none⟩, false, [], none⟩ :: s.irq }
      ∧ (s.enter v).ctx = .isr ∧ (∀ t, (s.enter v).runnable t = false)
      ∧ ∀ r, s.fault = none → s.sched = .deliver v :: r → s.deliverable v = true →
        step s = .next { s.enter v with sched := r }

/-- R460, R462: EVENT_IRQ, just entered, serves the flags its one sample shows, the line first, and returns to what it
preempted. For a flag it serves, its callback's body is empty, and the line's callback is not null; the reload-done path
finds ACTIVE, or the build has no checks. The waiter is a parked thread; in a build without checks it may be a callback's
vector, whose wake message is the model's choice (R520 a; log 19). -/
def Obligations.EventIrqCompletes : Prop :=
  ∀ (s : State) (below : List Activation),
    s.Entered .event below → s.cfg ≠ 0 → aligned4 s.cfg = true →
      (hasBits (s.isr &&& s.ier) 1 = true → s.QuietCallback 32) →
      (hasBits (s.isr &&& s.ier) 8 = true →
        (s.callbackId 36 = 0 ∨ s.cbBody (s.callbackId 36) = []) ∧ s.Passes (s.drvState == .active)) →
      exec .eventIrq s = .next
        { (if hasBits (s.isr &&& s.ier) 8 then (if hasBits (s.isr &&& s.ier) 1 then s.servedLine else s).servedReload
            else if hasBits (s.isr &&& s.ier) 1 then s.servedLine else s) with irq := below }

/-- R461, R462: ERROR_IRQ, just entered, serves the flags its one sample shows, the underrun first, and returns. -/
def Obligations.ErrorIrqCompletes : Prop :=
  ∀ (s : State) (below : List Activation),
    s.Entered .error below → s.cfg ≠ 0 → aligned4 s.cfg = true →
      (hasBits (s.isr &&& s.ier) 2 = true → s.QuietCallback 40) →
      (hasBits (s.isr &&& s.ier) 4 = true → s.QuietCallback 44) →
      exec .errorIrq s = .next
        { (if hasBits (s.isr &&& s.ier) 4 then (if hasBits (s.isr &&& s.ier) 2 then s.servedUnderrun else s).servedTerr
            else if hasBits (s.isr &&& s.ier) 2 then s.servedUnderrun else s) with irq := below }

/-- R113 (c), R460, R461, R465: a callback with a body, each of the four, is recorded, its commands become the handler's to issue,
and the handler waits for them with the flag not yet cleared; for reload-done with nobody woken and drv_state as it was. The
second flag of a handler comes after the first's path. Where the handler stands, and the cell's log, are named as log 3 has them. -/
def Obligations.HandlerWaitsForTheCallbackBody : Prop :=
  (∀ (s : State) (below : List Activation),
    s.Entered .event below → s.cfg ≠ 0 → aligned4 s.cfg = true →
      (hasBits (s.isr &&& s.ier) 1 = true → s.callbackId 32 ≠ 0 → s.cbBody (s.callbackId 32) ≠ [] →
        exec .eventIrq s = .next (s.called .event .line 32 7 [0, 0, 0, 0, s.callbackId 32, s.ier, s.isr] below))
      ∧ ((hasBits (s.isr &&& s.ier) 1 = true → s.QuietCallback 32) → hasBits (s.isr &&& s.ier) 8 = true →
        s.callbackId 36 ≠ 0 → s.cbBody (s.callbackId 36) ≠ [] →
          exec .eventIrq s = .next
            ((if hasBits (s.isr &&& s.ier) 1 then s.servedLine else s).called .event .reload 36 12
              ([0, 0, s.callbackId 36] ++ branchLog (s.isr &&& s.ier) 1 (s.callbackId 32) ++ [s.ier, s.isr]) below)))
  ∧ ∀ (s : State) (below : List Activation),
    s.Entered .error below → s.cfg ≠ 0 → aligned4 s.cfg = true →
      (hasBits (s.isr &&& s.ier) 2 = true → s.callbackId 40 ≠ 0 → s.cbBody (s.callbackId 40) ≠ [] →
        exec .errorIrq s = .next (s.called .error .underrun 40 7 [0, 0, 0, 0, s.callbackId 40, s.ier, s.isr] below))
      ∧ ((hasBits (s.isr &&& s.ier) 2 = true → s.QuietCallback 40) → hasBits (s.isr &&& s.ier) 4 = true →
        s.callbackId 44 ≠ 0 → s.cbBody (s.callbackId 44) ≠ [] →
          exec .errorIrq s = .next
            ((if hasBits (s.isr &&& s.ier) 2 then s.servedUnderrun else s).called .error .terr 44 14
              ([0, 0, 0, 0, s.callbackId 44] ++ branchLog (s.isr &&& s.ier) 2 (s.callbackId 40) ++ [s.ier, s.isr]) below))

/-- R113 (c), R460, R461, R462: a handler that stands where HandlerWaitsForTheCallbackBody leaves it (log 3), its callback's
commands done, goes on: the line's and the underrun's flag is cleared, then the second sampled flag is served; after the
reload-done callback the waiter is woken, drv_state becomes READY and the flag is cleared; the transfer error's flag is cleared;
and it returns. `i` and `e` are what it sampled of ISR and IER, `cb` the callback. The waiter may be a callback's vector in a
build without checks (log 19). -/
def Obligations.HandlerResumesAfterTheCallbackBody : Prop :=
  ∀ (s : State) (i e cb first : Word) (below : List Activation), s.sched = [] →
    (s.irq = handlerAt .event 7 [0, 0, 0, 0, cb, e, i] [] :: below → hasBits (i &&& e) 1 = true →
      (hasBits (i &&& e) 8 = true → s.cfg ≠ 0 ∧ aligned4 s.cfg = true
        ∧ (s.callbackId 36 = 0 ∨ s.cbBody (s.callbackId 36) = []) ∧ s.Passes (s.drvState == .active)) →
      exec .eventIrq s = .next
        { (if hasBits (i &&& e) 8 then (s.acked 1).servedReload else s.acked 1) with irq := below })
    ∧ (s.irq = handlerAt .event 12 ([0, 0, cb] ++ branchLog (i &&& e) 1 first ++ [e, i]) [] :: below →
      hasBits (i &&& e) 8 = true → cb ≠ 0 → s.Passes (s.drvState == .active) →
      exec .eventIrq s = .next { s.reloadCompleted with irq := below })
    ∧ (s.irq = handlerAt .error 7 [0, 0, 0, 0, cb, e, i] [] :: below → hasBits (i &&& e) 2 = true →
      (hasBits (i &&& e) 4 = true → s.cfg ≠ 0 ∧ aligned4 s.cfg = true ∧ s.QuietCallback 44) →
      exec .errorIrq s = .next
        { (if hasBits (i &&& e) 4 then (s.acked 2).servedTerr else s.acked 2) with irq := below })
    ∧ (s.irq = handlerAt .error 14 ([0, 0, 0, 0, cb] ++ branchLog (i &&& e) 2 first ++ [e, i]) [] :: below →
      hasBits (i &&& e) 4 = true →
      exec .errorIrq s = .next { s.acked 4 with irq := below })

/-- R460, R461: with CHECKS, a null callback of an enabled line, underrun or transfer-error event faults with
F_NULL_CALLBACK, and a reload-done that finds drv_state other than ACTIVE faults with F_ISR_STATE. Without CHECKS the null
callback is F_CRASH (R17). A handler that serves a flag while no configuration is held crashes at its read of it, whatever
CHECKS is (R17; log 32). The mark's step is the index of the check that failed (R31, R453), branches not taken jumped over:
the underrun's callback check is 3 and the transfer error's is 10, and the crash check after a check that CHECKS false skips is one
more (the numbering, and that a skipped check counts, is log 3). That the marks have no info is the model's choice (log 33). -/
def Obligations.HandlerFaults : Prop :=
  (∀ (s : State) (below : List Activation),
    s.Entered .event below → s.cfg ≠ 0 → aligned4 s.cfg = true → hasBits (s.isr &&& s.ier) 1 = true → s.callbackId 32 = 0 →
      FaultsAtStep .eventIrq s (if s.par.checks then 3 else 4) (if s.par.checks then .nullCallback else .crash) none)
  ∧ (∀ (s : State) (below : List Activation),
    s.Entered .error below → s.cfg ≠ 0 → aligned4 s.cfg = true → hasBits (s.isr &&& s.ier) 2 = true → s.callbackId 40 = 0 →
      FaultsAtStep .errorIrq s (if s.par.checks then 3 else 4) (if s.par.checks then .nullCallback else .crash) none)
  ∧ (∀ (s : State) (below : List Activation),
    s.Entered .error below → s.cfg ≠ 0 → aligned4 s.cfg = true → hasBits (s.isr &&& s.ier) 2 = false →
      hasBits (s.isr &&& s.ier) 4 = true → s.callbackId 44 = 0 →
      FaultsAtStep .errorIrq s (if s.par.checks then 10 else 11) (if s.par.checks then .nullCallback else .crash) none)
  ∧ (∀ (s : State) (below : List Activation),
    s.Entered .event below → s.cfg ≠ 0 → aligned4 s.cfg = true → hasBits (s.isr &&& s.ier) 1 = false →
      hasBits (s.isr &&& s.ier) 8 = true → s.callbackId 36 = 0 → s.par.checks = true → s.drvState ≠ .active →
      FaultsAtStep .eventIrq s 13 .isrState none)
  ∧ ∀ (s : State) (below : List Activation), s.cfg = 0 →
    (s.Entered .event below → hasBits (s.isr &&& s.ier) 9 = true →
      FaultsAtStep .eventIrq s (if hasBits (s.isr &&& s.ier) 1 then 2 else 9) .crash none)
    ∧ (s.Entered .error below → hasBits (s.isr &&& s.ier) 6 = true →
      FaultsAtStep .errorIrq s (if hasBits (s.isr &&& s.ier) 2 then 2 else 9) .crash none)

-- ==== the raster agent and the registers ====

/-- R68, R421: a commit copies every shadow, clears both requests and records itself; it sets RRIF for a vertical-blank
request, and for an immediate one only with RR_IRQ_ON_IMMEDIATE. -/
def Obligations.CommitMakesShadowsLive : Prop :=
  ∀ s : State,
    s.commit.active = s.shadow ∧ s.commit.clutActive = s.clutShadow ∧ s.commit.shadow = s.shadow
      ∧ s.commit.clutShadow = s.clutShadow ∧ s.commit.srcr = 0 ∧ s.commit.events = s.events ++ [.commit (s.srcr &&& 0x3)]
      ∧ s.commit.isr
        = (if hasBits s.srcr 2 || (hasBits s.srcr 1 && s.par.rrIrqOnImmediate) then s.isr ||| 0x8 else s.isr)

/-- R427: a raster step writes the active copies, the active CLUT, SRCR, ISR and the event history and nothing else: no
shadow copy, no IER, no LIPCR, no panel state. It never clears an ISR bit and never sets an SRCR bit; it leaves SRCR as it
was or clears it. With active LTDCEN = 0 and no immediate request it has no step (R421 to R424). -/
def Obligations.RasterWritesOnlyItsOwn : Prop :=
  ∀ (s : State) (a : RasterAct),
    s.rasterStep a
        = { s with
            active := (s.rasterStep a).active
            clutActive := (s.rasterStep a).clutActive
            srcr := (s.rasterStep a).srcr
            isr := (s.rasterStep a).isr
            events := (s.rasterStep a).events }
      ∧ s.isr &&& (s.rasterStep a).isr = s.isr
      ∧ ((s.rasterStep a).srcr = s.srcr ∨ (s.rasterStep a).srcr = 0)
      ∧ (hasBits s.active.gcr 1 = false → hasBits s.srcr 1 = false → s.rasterStep a = s)

/-- R15, R40, R46, R49, R64, R67: what a register write does. A layer register read back is the value written, cut to its writable
bits; the other registers of that layer, the other layer's and the active copies keep theirs. SRCR only gains bits, ICR clears
ISR bits, CLUTWR writes the slot its high byte names; and none of the three reads back as a stored value. -/
def Obligations.RegisterWrites : Prop :=
  ∀ (s : State) (l : Layer) (v : Word),
    (∀ q : LReg, q ≠ .clutwr →
      (s.regWrite (.lay l q) v).regRead (.lay l q) = v &&& q.writableMask
        ∧ (s.regWrite (.lay l q) v).active = s.active
        ∧ (∀ q', q' ≠ q → (s.regWrite (.lay l q) v).regRead (.lay l q') = s.regRead (.lay l q'))
        ∧ ∀ l' q', l' ≠ l → (s.regWrite (.lay l q) v).regRead (.lay l' q') = s.regRead (.lay l' q'))
      ∧ s.regWrite .srcr v = { s with srcr := s.srcr ||| (v &&& 0x3) }
      ∧ s.regWrite .icr v = { s with isr := s.isr &&& ~~~(v &&& 0xF) } ∧ s.regRead .icr = 0
      ∧ s.regRead (.lay l .clutwr) = 0
      ∧ (∀ (j : Nat) (h : j < 256), ((s.regWrite (.lay l .clutwr) v).clutShadow.layer l)[j]'h
        = if (v >>> 24).toNat = j then v.truncate 24 else (s.clutShadow.layer l)[j]'h)
      ∧ (s.regWrite (.lay l .clutwr) v).clutActive = s.clutActive

-- ==== packing, windows, colours ====

/-- R149, R150: unpacking inverts packing for a line of at most MAX_LINE_BYTES and a pitch below 2^PITCH_BITS. -/
def Obligations.LineLengthUnpacks : Prop :=
  ∀ p n : Word, n ≤ Config.limits.maxLineBytes → p.toNat < 2 ^ Config.pitchBits →
    cfbp (packCfblr p n) = p ∧ lineBytes (packCfblr p n) = n

/-- R315, R316: a window whose absolute bounds fit the register fields reads back as it was set. -/
def Obligations.WindowReadsBack : Prop :=
  ∀ (a : ActiveWindow) (r : LayerRegs) (w : WindowD),
    w.hstart + a.hs ≤ 4095 → w.hstop + a.hs ≤ 4095 → w.vstart + a.vs ≤ 2047 → w.vstop + a.vs ≤ 2047 →
      windowOf a (r.withWindow a w) = w

/-- R366: converting to a direct format and back keeps each channel's high bits and repeats them below; a format without
alpha gives 0xFF. -/
def Obligations.ColourRoundTrip : Prop :=
  ∀ c : Word,
    toArgb (fromArgb c 0) 0 = c
      ∧ toArgb (fromArgb c 1) 1 = 0xFF000000#32 ||| (c &&& 0x00FFFFFF#32)
      ∧ toArgb (fromArgb c 2) 2
        = 0xFF000000#32 ||| (c &&& 0x00F8FCF8#32) ||| ((c >>> 5) &&& 0x00070007#32) ||| ((c >>> 6) &&& 0x00000300#32)
      ∧ toArgb (fromArgb c 3) 3
        = (if c.getLsbD 31 then 0xFF000000#32 else 0) ||| (c &&& 0x00F8F8F8#32) ||| ((c >>> 5) &&& 0x00070707#32)
      ∧ toArgb (fromArgb c 4) 4 = (c &&& 0xF0F0F0F0#32) ||| ((c >>> 4) &&& 0x0F0F0F0F#32)

/-- R363, R365: the pixel a direct format makes of ARGB-8888 channels, bit field by bit field. -/
def Obligations.PixelLayouts : Prop :=
  ∀ c : Word,
    fromArgb c 2 = ((c >>> 8) &&& 0xF800#32) ||| ((c >>> 5) &&& 0x07E0#32) ||| ((c >>> 3) &&& 0x001F#32)
      ∧ fromArgb c 3
        = ((c >>> 16) &&& 0x8000#32) ||| ((c >>> 9) &&& 0x7C00#32) ||| ((c >>> 6) &&& 0x03E0#32) ||| ((c >>> 3) &&& 0x001F#32)
      ∧ fromArgb c 4
        = ((c >>> 16) &&& 0xF000#32) ||| ((c >>> 12) &&& 0x0F00#32) ||| ((c >>> 8) &&& 0x00F0#32) ||| ((c >>> 4) &&& 0x000F#32)

-- ==== completion: global and reload getters, global setters ====

/-- R204, R260, R262, R264, R266: the global getters return and change nothing; GET_CURRENT_POS uses one draw, whose value
is free (R425, log 8), X above Y. -/
def Obligations.GlobalGettersComplete : Prop :=
  ∀ (c : Form) (o : Operands) (s : State), s.MayRunI c →
    (s.Issued (.isReloading c) o → Completes (.isReloading c) s s (.word (boolWord (s.srcr &&& 0x3 != 0))))
    ∧ (s.Issued (.getGlobalFlags c) o → Completes (.getGlobalFlags c) s s (.word (s.shadow.gcr &&& 0xF0010000#32)))
    ∧ (s.Issued (.getClearColor c) o → Completes (.getClearColor c) s s (.word (s.shadow.bccr &&& 0x00FFFFFF#32)))
    ∧ (s.Issued (.getLinePos c) o → Completes (.getLinePos c) s s (.word (s.lipcr &&& 0x7FF#32)))
    ∧ (s.Issued (.getCurrentPos c) o →
      Completes (.getCurrentPos c) s { s with draws := s.draws + 1 }
        (.pos (Config.cpsrDraw s.draws >>> 16) (Config.cpsrDraw s.draws &&& 0xFFFF#32)))

/-- R261, R263, R265: the global setters write their register's shadow, or LIPCR, and nothing else. -/
def Obligations.GlobalSettersComplete : Prop :=
  ∀ (c : Form) (o : Operands) (s : State), s.MayRunI c →
    (s.Issued (.setGlobalFlags c) o →
      Completes (.setGlobalFlags c) s { s with shadow := { s.shadow with gcr := gcrWithFlags s.shadow.gcr o.x } } .unit)
    ∧ (s.Issued (.setClearColor c) o →
      Completes (.setClearColor c) s { s with shadow := { s.shadow with bccr := o.x &&& 0x00FFFFFF#32 } } .unit)
    ∧ (s.Issued (.setLinePos c) o → s.Passes (decide (o.x ≤ 0x7FF)) →
      Completes (.setLinePos c) s { s with lipcr := o.x &&& 0x7FF#32 } .unit)

-- ==== completion: layers ====

/-- R280, R282, R285, R287, R289, R292, R294, R296, R307, R327: the layer getters return the shadow copy's field and change
nothing. -/
def Obligations.LayerGettersComplete : Prop :=
  ∀ (l : Layer) (c : Form) (o : Operands) (s : State), s.MayRunI c →
    (s.Issued (.getEnableFlags l c) o → Completes (.getEnableFlags l c) s s (.word ((s.lay l).cr &&& 0x13)))
    ∧ (s.Issued (.isLayerEnabled l c) o →
      Completes (.isLayerEnabled l c) s s
        (.word (boolWord (if s.par.isEnabledMaskBug then (s.lay l).cr &&& ~~~(1 : Word) != 0 else (s.lay l).cr &&& 1 != 0))))
    ∧ (s.Issued (.getPixelFormat l c) o → Completes (.getPixelFormat l c) s s (.word ((s.lay l).pfcr &&& 0x7)))
    ∧ (s.Issued (.getKeyColor l c) o → Completes (.getKeyColor l c) s s (.word ((s.lay l).ckcr &&& 0x00FFFFFF#32)))
    ∧ (s.Issued (.isKeyingEnabled l c) o →
      Completes (.isKeyingEnabled l c) s s (.word (boolWord ((s.lay l).cr &&& 0x2 != 0))))
    ∧ (s.Issued (.getConstAlpha l c) o → Completes (.getConstAlpha l c) s s (.word ((s.lay l).cacr &&& 0xFF)))
    ∧ (s.Issued (.getDefaultColor l c) o → Completes (.getDefaultColor l c) s s (.word (s.lay l).dccr))
    ∧ (s.Issued (.getBlending l c) o → Completes (.getBlending l c) s s (.word ((s.lay l).bfcr &&& 0x0707)))
    ∧ (s.Issued (.isPaletteEnabled l c) o →
      Completes (.isPaletteEnabled l c) s s (.word (boolWord ((s.lay l).cr &&& 0x10 != 0))))
    ∧ (s.Issued (.getFrameAddress l c) o → Completes (.getFrameAddress l c) s s (.word (s.lay l).cfbar))

/-- R281, R283, R284, R290, R291, R308, R309: the flag commands write LxCR's shadow and nothing else. -/
def Obligations.LayerFlagCommandsComplete : Prop :=
  ∀ (l : Layer) (c : Form) (o : Operands) (s : State), s.MayRunI c →
    (s.Issued (.setEnableFlags l c) o →
      Completes (.setEnableFlags l c) s (s.putLayer l { s.lay l with cr := o.x &&& 0x13 }) .unit)
    ∧ (s.Issued (.enableLayer l c) o →
      Completes (.enableLayer l c) s (s.putLayer l { s.lay l with cr := ((s.lay l).cr ||| 0x1) &&& 0x13 }) .unit)
    ∧ (s.Issued (.disableLayer l c) o →
      Completes (.disableLayer l c) s (s.putLayer l { s.lay l with cr := (s.lay l).cr &&& 0x12 }) .unit)
    ∧ (s.Issued (.enableKeying l c) o →
      Completes (.enableKeying l c) s (s.putLayer l { s.lay l with cr := ((s.lay l).cr ||| 0x2) &&& 0x13 }) .unit)
    ∧ (s.Issued (.disableKeying l c) o →
      Completes (.disableKeying l c) s (s.putLayer l { s.lay l with cr := (s.lay l).cr &&& 0x11 }) .unit)
    ∧ (s.Issued (.enablePalette l c) o →
      Completes (.enablePalette l c) s (s.putLayer l { s.lay l with cr := ((s.lay l).cr ||| 0x10) &&& 0x13 }) .unit)
    ∧ (s.Issued (.disablePalette l c) o →
      Completes (.disablePalette l c) s (s.putLayer l { s.lay l with cr := (s.lay l).cr &&& 0x03 }) .unit)

/-- R286, R288, R293, R295, R297, R328: the value setters write one shadow register and nothing else. -/
def Obligations.LayerValueSettersComplete : Prop :=
  ∀ (l : Layer) (c : Form) (o : Operands) (s : State), s.MayRunI c →
    (s.Issued (.setPixelFormat l c) o → s.Passes (decide (o.x ≤ 7)) →
      Completes (.setPixelFormat l c) s (s.putLayer l { s.lay l with pfcr := o.x &&& 0x7 }) .unit)
    ∧ (s.Issued (.setKeyColor l c) o →
      Completes (.setKeyColor l c) s (s.putLayer l { s.lay l with ckcr := o.x &&& 0x00FFFFFF#32 }) .unit)
    ∧ (s.Issued (.setConstAlpha l c) o →
      Completes (.setConstAlpha l c) s (s.putLayer l { s.lay l with cacr := o.x &&& 0xFF }) .unit)
    ∧ (s.Issued (.setDefaultColor l c) o →
      Completes (.setDefaultColor l c) s (s.putLayer l { s.lay l with dccr := o.x }) .unit)
    ∧ (s.Issued (.setBlending l c) o →
      Completes (.setBlending l c) s (s.putLayer l { s.lay l with bfcr := o.x &&& 0x0707 }) .unit)
    ∧ (s.Issued (.setFrameAddress l c) o →
      Completes (.setFrameAddress l c) s (s.putLayer l { s.lay l with cfbar := o.x }) .unit)

/-- R305, R306: the palette commands write shadow palette entries and nothing else: one entry, or the words at pal_ptr in
index order. A build without checks takes the slot modulo 256. -/
def Obligations.PaletteCommandsComplete : Prop :=
  ∀ (l : Layer) (c : Form) (o : Operands) (s : State), s.MayRunI c → s.Passes ((s.lay l).cr &&& 1 == 0) →
    (s.Issued (.setPaletteEntry l c) o → s.Passes (decide (o.x < 256)) →
      Completes (.setPaletteEntry l c) s
        (s.putPalette l ((s.clutShadow.layer l).setIfInBounds (o.x.toNat % 256) (o.y.truncate 24))) .unit)
    ∧ (s.Issued (.setPalette l c) o → s.Passes (decide (o.y ≤ 256)) → o.y = 0 ∨ (o.x ≠ 0 ∧ aligned4 o.x = true) →
      Completes (.setPalette l c) s (s.putPalette l (loadedPalette s.mem o.x o.y.toNat (s.clutShadow.layer l))) .unit)

/-- R315 to R317: GET_WINDOW writes the 8-byte record at out_ptr; SET_WINDOW and SET_INVALID_WINDOW write the layer's two
window registers; nothing else changes. -/
def Obligations.WindowCommandsComplete : Prop :=
  ∀ (l : Layer) (c : Form) (o : Operands) (s : State), s.MayRunI c →
    (s.Issued (.getWindow l c) o → o.x ≠ 0 → aligned4 o.x = true →
      Completes (.getWindow l c) s { s with mem := s.mem.putWindow o.x (windowOf s.activeWindow (s.lay l)) } .unit)
    ∧ (s.Issued (.setWindow l c) o → o.x ≠ 0 → aligned4 o.x = true →
      s.Passes (windowOk s.activeWindow (windowAt s.mem o.x)) →
      Completes (.setWindow l c) s (s.putLayer l ((s.lay l).withWindow s.activeWindow (windowAt s.mem o.x))) .unit)
    ∧ (s.Issued (.setInvalidWindow l c) o → s.Passes (windowOk s.activeWindow ⟨0, 0, 0, 0⟩) →
      Completes (.setInvalidWindow l c) s (s.putLayer l ((s.lay l).withWindow s.activeWindow ⟨0, 0, 0, 0⟩)) .unit)

/-- R325, R326: GET_FRAME writes the 16-byte record at out_ptr; SET_FRAME, with a configuration held and the frame within
the screen, writes the layer's four frame registers; nothing else changes. -/
def Obligations.FrameCommandsComplete : Prop :=
  ∀ (l : Layer) (c : Form) (o : Operands) (s : State), s.MayRunI c → o.x ≠ 0 → aligned4 o.x = true →
    (s.Issued (.getFrame l c) o →
      Completes (.getFrame l c) s { s with mem := s.mem.putFrame o.x (frameOf (s.lay l)) } .unit)
    ∧ (s.Issued (.setFrame l c) o → s.cfg ≠ 0 → aligned4 s.cfg = true →
      s.Passes (frameOk (s.mem.readLe s.cfg 2) (s.mem.readLe (s.cfg + 2) 2) (frameAt s.mem o.x)) →
      Completes (.setFrame l c) s (s.putLayer l ((s.lay l).withFrame (frameAt s.mem o.x))) .unit)

/-- R335: GET_LAYER writes the 48-byte record at out_ptr but for its padding byte, the palette null; nothing else changes. -/
def Obligations.GetLayerCompletes : Prop :=
  ∀ (l : Layer) (c : Form) (o : Operands) (s : State),
    s.MayRunI c → s.Issued (.getLayer l c) o → o.x ≠ 0 → o.x + 16 ≠ 0 → aligned4 o.x = true →
      Completes (.getLayer l c) s { s with mem := s.mem.putLayerSpec o.x s.activeWindow (s.lay l) } .unit

/-- R336: SET_LAYER writes every register of the layer from the specification, the default one for a null pointer, and its
palette when it has one; nothing else changes. -/
def Obligations.SetLayerCompletes : Prop :=
  ∀ (l : Layer) (c : Form) (o : Operands) (s : State),
    s.MayRunI c → s.Issued (.setLayer l c) o → specReadable s.mem o.x = true → s.cfg ≠ 0 → aligned4 s.cfg = true →
      s.Passes (specOk (s.mem.readLe s.cfg 2) (s.mem.readLe (s.cfg + 2) 2) s.activeWindow (s.lay l).cr (specAt s.mem o.x)) →
      Completes (.setLayer l c) s (s.putSpec l (specAt s.mem o.x)) .unit

-- ==== completion: helpers ====

/-- R360, R364, R365: the helpers return from any context and change nothing. The bits per pixel are the table's; formats 5
to 7 convert by CONV_CLUT, which is open (log 9). -/
def Obligations.HelpersComplete : Prop :=
  ∀ (o : Operands) (s : State),
    (s.Issued .bpp o → s.Passes (decide (o.x ≤ 7)) →
      Completes .bpp s s (.word ([32, 24, 16, 16, 16, 8, 8, 16].getD (o.x.toNat % 8) 0)))
    ∧ (s.Issued .toArgb8888 o → s.Passes (decide (o.y ≤ 7)) → Completes .toArgb8888 s s (.word (toArgb o.x o.y)))
    ∧ (s.Issued .fromArgb8888 o → s.Passes (decide (o.y ≤ 7)) → Completes .fromArgb8888 s s (.word (fromArgb o.x o.y)))

-- ==== completion: life cycle and reload ====

/-- R200, R501: INIT resets every LTDC register and leaves the NVIC enables, the panel and the logs. The values of LxCACR,
LxBFCR and GCR are the spec's RESET_VALUES (R83). That the CLUT keeps its contents is the model's choice (log 6): R83 and
R532 call the CLUT after INIT a draw. -/
def Obligations.InitCompletes : Prop :=
  ∀ (o : Operands) (s : State), s.Issued .init o → s.Passes (s.drvState == .uninit) →
    Completes .init s
      { s with
        shadow := .resetValues, active := .resetValues, srcr := 0, ier := 0, isr := 0, lipcr := 0
        activeWindow := ⟨0, 0, 0, 0⟩, waiter := none, ltdcOwner := none, cfg := 0, drvState := .stop } .unit

/-- R201, R202, R208, R209: START with a configuration whose timings pass and two layer specifications that can be read and
pass returns in READY, with the registers, the active window, the vectors and the sources the rules give, after three
immediate reloads. The yields take the lock back, so that the locked form ends with it held, by the interrupt agent where a
build without checks lets a callback issue it, which is the model's choice (R206, R520 a; log 19). That the commits come at
the yields, so that START returns in one turn, is the model's choice (log 2). -/
def Obligations.StartCompletes : Prop :=
  ∀ (c : Form) (o : Operands) (s : State) (d : ConfigD) (bg fg : LayerSpecD),
    s.MayRunS c → s.Issued (.start c) o → s.Passes (s.drvState == .stop) → o.x ≠ 0 → aligned4 o.x = true →
      d = configAt s.mem o.x → bg = specAt s.mem d.bgSpec → fg = specAt s.mem d.fgSpec →
      specReadable s.mem d.bgSpec = true → specReadable s.mem d.fgSpec = true → s.Passes (timingsOk d) →
      s.Passes (specOk d.screenWidth d.screenHeight (s.started o.x d bg fg).activeWindow (s.lay .l1).cr bg) →
      s.Passes (specOk d.screenWidth d.screenHeight (s.started o.x d bg fg).activeWindow (s.lay .l2).cr fg) →
      Completes (.start c) s { s.started o.x d bg fg with lockHolder := s.lockAfterWait c } .unit

/-- R201, R203: STOP returns in STOP with LTDCEN and IER cleared and one immediate reload; everything else is kept, but that
the yield of a locked form takes the lock for the agent that runs it, for the interrupt agent by the model's choice (R206, R520 a;
log 19). That the commit comes at the
yield, so that STOP returns in one turn, is the model's choice (log 2). -/
def Obligations.StopCompletes : Prop :=
  ∀ (c : Form) (o : Operands) (s : State), s.MayRunS c → s.Issued (.stop c) o → s.Passes (s.drvState == .ready) →
    Completes (.stop c) s
      { ({ s with ier := 0, shadow := { s.shadow with gcr := s.shadow.gcr &&& 0xF0017770#32 } } : State).immediateReload with
        drvState := .stop, lockHolder := s.lockAfterWait c } .unit

/-- R205: START_RELOAD moves READY to ACTIVE, requests the reload and returns without waiting. -/
def Obligations.StartReloadCompletes : Prop :=
  ∀ (c : Form) (o : Operands) (s : State), s.MayRunI c → s.Issued (.startReload c) o → s.Passes (s.drvState == .ready) →
    Completes (.startReload c) s
      { s with drvState := .active, srcr := s.srcr ||| (if o.x = 0 then 0x2 else 0x1) } .unit

/-- R206: RELOAD_WAIT immediate, and in a build without the wait slot a deferred one while the controller is on, polls until
the commit and returns MSG_OK in READY, a locked form with the lock taken by the agent that runs it (R520 a; log 19). That the
commit comes at the yield, and before any handler (R513 leaves the order open), so that the command returns in one turn, is
the model's choice (log 2). -/
def Obligations.PolledReloadWaitCompletes : Prop :=
  ∀ (c : Form) (o : Operands) (s : State),
    s.MayRunS c → s.Issued (.reloadWait c) o → s.Passes s.waiter.isNone → s.Passes (s.drvState == .ready) →
      (o.x ≠ 0 ∨ (s.par.useWait = false ∧ hasBits s.active.gcr 1 = true)) →
      Completes (.reloadWait c) s
        { ({ s with srcr := s.srcr ||| (if o.x = 0 then 0x2 else 0x1) } : State).commit with
          drvState := .ready, lockHolder := s.lockAfterWait c } (.msg .ok)

/-- R206: RELOAD_WAIT deferred, with the wait slot, requests the reload, parks the agent that runs it, gives the lock up and
sleeps; the api form's thread stays in THREAD_LOCKED. The cell stands at the second micro-step of the sleep (numbering: log
3). The agent is a thread, or in a build without checks a callback's vector, the model's choice (R520 a; log 19). -/
def Obligations.DeferredReloadWaitParks : Prop :=
  ∀ (c : Form) (o : Operands) (s : State),
    s.MayRunS c → s.Issued (.reloadWait c) o → s.Passes s.waiter.isNone → s.Passes (s.drvState == .ready) →
      s.par.useWait = true → o.x = 0 → s.wakeOf s.self = none →
      exec (.reloadWait c) s = .next
        (({ s with
          drvState := .active
          srcr := s.srcr ||| 0x2
          waiter := some s.self
          lockHolder := none
          threads := (match c with
            | .api => s.threads.modify s.cur fun th => { th with locked := true }
            | .locked => s.threads) } : State).suspend (parkedCell c o (some .wake)))

/-- R206: the agent that sleeps as DeferredReloadWaitParks leaves it, woken with the lock free, takes the lock and its message
and returns MSG_OK; the api form, which a thread runs, then gives the lock up. The cell's numbering is log 3; that a callback's
command sleeps, and takes the lock, under its vector in a build without checks is the model's choice (R520 a; log 19). -/
def Obligations.DeferredReloadWaitWakes : Prop :=
  ∀ (c : Form) (o : Operands) (s : State) (w : Option Wait),
    s.sched = [] → s.par.useWait = true → o.x = 0 → s.lockHolder = none → (c = .api → s.irq = []) →
      s.curCell = some (parkedCell c o w) → s.wakeOf s.self = some .ok →
      exec (.reloadWait c) s = .next
        ((match c with
          | .api => (s.setWake s.self none).releaseLock s.cur
          | .locked => { s.setWake s.self none with lockHolder := some s.self }).finish (encode (.reloadWait c)) (.msg .ok))

/-- R210, R211, R385, R386: the two mutexes: acquire when free, hold when owned, release by the owner (or by anyone in a build
without checks), F_NOT_OWNER for another, without info (log 33). A hold is micro-step 3 in the model's numbering (log 3), which
counts a skipped check. The owner is a thread; that it is a callback's vector where a build without checks lets one acquire is the model's choice (log 19). -/
def Obligations.MutexCommands : Prop :=
  (∀ (o : Operands) (s : State), s.Passes (s.ctx == .thread) → s.par.useMutex = true → s.Passes (s.drvState != .uninit) →
    (s.Issued .acquireBus o → s.ltdcOwner = none →
      Completes .acquireBus s { s with ltdcOwner := some s.self } .unit)
    ∧ (s.Issued .acquireBus o → s.ltdcOwner ≠ none →
      exec .acquireBus s = .next (s.suspend ⟨encode .acquireBus, o, 3, [0, 0, 0], some .ltdcBus⟩))
    ∧ (s.Issued .releaseBus o → s.Passes (s.ltdcOwner == some s.self) →
      Completes .releaseBus s { s with ltdcOwner := none } .unit)
    ∧ (s.Issued .releaseBus o → s.par.checks = true → s.ltdcOwner ≠ some s.self →
      FaultsAtOnce .releaseBus s .notOwner none))
  ∧ ∀ (o : Operands) (s : State), s.Passes (s.ctx == .thread) → s.Passes (s.pnlState != .absent) →
    (s.Issued .pnlAcquireBus o → s.pnlOwner = none →
      Completes .pnlAcquireBus s { s with pnlOwner := some s.self } .unit)
    ∧ (s.Issued .pnlAcquireBus o → s.pnlOwner ≠ none →
      exec .pnlAcquireBus s = .next (s.suspend ⟨encode .pnlAcquireBus, o, 3, [0, 0, 0], some .pnlBus⟩))
    ∧ (s.Issued .pnlReleaseBus o → s.Passes (s.pnlOwner == some s.self) →
      Completes .pnlReleaseBus s { s with pnlOwner := none } .unit)
    ∧ (s.Issued .pnlReleaseBus o → s.par.checks = true → s.pnlOwner ≠ some s.self →
      FaultsAtOnce .pnlReleaseBus s .notOwner none)

-- ==== completion: panel ====

/-- R382 to R384, R387, R388: the panel's life cycle and select bracket. From THREAD, or without checks from any context (R455,
R520 a), and the panel transfers alike. -/
def Obligations.PanelLifecycleCompletes : Prop :=
  ∀ (o : Operands) (s : State),
    (s.Issued .pnlObjectInit o → s.Passes (s.pnlState == .absent) →
      Completes .pnlObjectInit s { s with pnlCfg := none, pnlScratch := 0, pnlOwner := none, pnlState := .stop } .unit)
    ∧ (s.Passes (s.ctx == .thread) → s.Issued .pnlStart o → s.Passes (s.pnlState == .stop) → o.x ≠ 0 → aligned4 o.x = true →
      Completes .pnlStart s
        { s with pnlCfg := some ⟨s.mem.readLe o.x 4, s.mem.readLe (o.x + 4) 4⟩, pnlState := .ready } .unit)
    ∧ (s.Passes (s.ctx == .thread) → s.Issued .pnlStop o → s.Passes (s.pnlState == .ready) →
      Completes .pnlStop s { s with pnlState := .stop } .unit)
    ∧ (s.Passes (s.ctx == .thread) → s.Issued .pnlSelect o → s.Passes (s.pnlState == .ready) →
      Completes .pnlSelect s { s with cs := .asserted, pnlState := .active } .unit)
    ∧ (s.Passes (s.ctx == .thread) → s.Issued .pnlUnselect o → s.Passes (s.pnlState == .active) →
      Completes .pnlUnselect s { s with cs := .deasserted, pnlState := .ready } .unit)

/-- R389 to R391: the single-byte transfers. A command byte goes out with D/CX low, a data byte with D/CX high, from the
scratch byte; a received byte is a free value (R381, log 8). Without CHECKS the hypotheses admit a null pnl_cfg: that D/CX is
driven and the transfer goes on then is the model's choice (log 18). -/
def Obligations.PanelByteTransfersComplete : Prop :=
  ∀ (o : Operands) (s : State), s.Passes (s.ctx == .thread) → s.Passes (s.pnlState == .active) →
    (s.Issued .pnlWriteCommand o →
      Completes .pnlWriteCommand s
        { s with pnlScratch := o.x.truncate 8, dcx := .low, wire := s.wire ++ [⟨.tx, .low, s.cs, o.x.truncate 8⟩] } .unit)
    ∧ (s.Issued .pnlWriteByte o →
      Completes .pnlWriteByte s
        { s with pnlScratch := o.x.truncate 8, dcx := .high, wire := s.wire ++ [⟨.tx, .high, s.cs, o.x.truncate 8⟩] } .unit)
    ∧ (s.Issued .pnlReadByte o →
      Completes .pnlReadByte s
        { s with
          pnlScratch := Config.spiRx s.draws, dcx := .high, draws := s.draws + 1
          wire := s.wire ++ [⟨.rx, .high, s.cs, Config.spiRx s.draws⟩] }
        (.word ((Config.spiRx s.draws).zeroExtend 32)))

/-- R103, R392, R393: the chunk transfers, D/CX high: the n bytes at buf go out lowest address first; n received bytes, each
a free value (R381, log 8), are stored lowest address first. Two cases that CHECKS false admits are the model's choice: a null
pnl_cfg, where D/CX is driven and the transfer goes on (log 18), and a chunk of 0 bytes at a null buffer, which does not crash
(log 28). -/
def Obligations.PanelChunksComplete : Prop :=
  ∀ (o : Operands) (s : State), s.Passes (s.ctx == .thread) → s.Passes (s.pnlState == .active) → s.Passes (decide (1 ≤ o.y)) →
    s.Passes (o.x != 0) → o.x ≠ 0 ∨ o.y = 0 →
    (s.Issued .pnlWriteChunk o →
      Completes .pnlWriteChunk s
        { s with
          dcx := .high
          wire := s.wire ++ (bytesAt s.mem o.x o.y.toNat).map fun b => ⟨.tx, .high, s.cs, b⟩ } .unit)
    ∧ (s.Issued .pnlReadChunk o →
      Completes .pnlReadChunk s
        { ({ s with dcx := .high } : State).receiveN o.y.toNat with
          mem := s.mem.storeBytes o.x ((List.range o.y.toNat).map fun j => Config.spiRx (s.draws + j)) } .unit)

-- ==== faults ====

/-- R200 to R211, R212, R382 to R393, R395: with CHECKS, a command in the wrong driver or panel state faults with F_STATE and
writes nothing; a second waiter faults with F_SECOND_WAITER, before the state is looked at. That the marks have no
info is the model's choice (log 33). -/
def Obligations.WrongStateFaults : Prop :=
  (∀ (c : Form) (o : Operands) (s : State), s.par.checks = true →
    (s.Issued .init o → s.drvState ≠ .uninit → FaultsAtOnce .init s .state none)
    ∧ (s.MayRunS c → s.Issued (.start c) o → s.drvState ≠ .stop → FaultsAtOnce (.start c) s .state none)
    ∧ (s.MayRunS c → s.Issued (.stop c) o → s.drvState ≠ .ready → FaultsAtOnce (.stop c) s .state none)
    ∧ (s.MayRunI c → s.Issued (.startReload c) o → s.drvState ≠ .ready → FaultsAtOnce (.startReload c) s .state none)
    ∧ (s.MayRunS c → s.Issued (.reloadWait c) o → s.waiter ≠ none → FaultsAtOnce (.reloadWait c) s .secondWaiter none)
    ∧ (s.MayRunS c → s.Issued (.reloadWait c) o → s.waiter = none → s.drvState ≠ .ready →
      FaultsAtOnce (.reloadWait c) s .state none)
    ∧ (s.ctx = .thread → s.par.useMutex = true → s.Issued .acquireBus o → s.drvState = .uninit →
      FaultsAtOnce .acquireBus s .state none)
    ∧ (s.ctx = .thread → s.par.useMutex = true → s.Issued .releaseBus o → s.drvState = .uninit →
      FaultsAtOnce .releaseBus s .state none))
  ∧ ∀ (i : Instr) (o : Operands) (s : State), s.par.checks = true → s.Issued i o →
    (i = .pnlObjectInit → s.pnlState ≠ .absent → FaultsAtOnce i s .state none)
    ∧ (s.ctx = .thread →
      (i = .pnlStart → s.pnlState ≠ .stop → FaultsAtOnce i s .state none)
      ∧ (i = .pnlStop ∨ i = .pnlSelect → s.pnlState ≠ .ready → FaultsAtOnce i s .state none)
      ∧ (i = .pnlAcquireBus ∨ i = .pnlReleaseBus → s.pnlState = .absent → FaultsAtOnce i s .state none)
      ∧ (i = .pnlUnselect ∨ i = .pnlWriteCommand ∨ i = .pnlWriteByte ∨ i = .pnlReadByte ∨ i = .pnlWriteChunk
          ∨ i = .pnlReadChunk → s.pnlState ≠ .active → FaultsAtOnce i s .state none))

/-- R202, R208, R265, R286, R305, R306, R315, R316, R317, R325, R326, R335, R336, R360, R364, R365, R383, R392, R393, R456: with
CHECKS, the first failing check of an operand names the fault. (1) Setters and getters: line and format range, an enabled
layer, the palette's index, length and pointer in that order, a null record pointer, a window beyond the active area (the
invalid window's too), no configuration, a frame's format, a frame beyond the screen or the line bounds, with nothing written
before; SET_LAYER's format, geometry, window, enabled layer and palette length in that order, with what specFault says written
before. (2) Helpers: a format id above 7. (3) START: a null pointer; timings out of range, found after START has taken the
configuration, turned the controller off and committed, and before a layer, the active window or a vector is written; and the
faults of its two layer specifications, found after the timings are programmed, the second's after the first layer is written.
(4) Panel: a null configuration, a chunk of 0 bytes, a null buffer. That the marks have no info is the model's choice (log 33),
that START's first commit comes at its yield is log 2, and that a specification's record does not wrap is log 20. -/
def Obligations.OperandFaults : Prop :=
  (∀ (l : Layer) (c : Form) (o : Operands) (s : State), s.par.checks = true → s.MayRunI c →
    (s.Issued (.setLinePos c) o → ¬o.x ≤ 0x7FF → FaultsAtOnce (.setLinePos c) s .range none)
    ∧ (s.Issued (.setPixelFormat l c) o → ¬o.x ≤ 7 → FaultsAtOnce (.setPixelFormat l c) s .range none)
    ∧ (s.Issued (.setPaletteEntry l c) o →
      ((s.lay l).cr &&& 1 ≠ 0 → FaultsAtOnce (.setPaletteEntry l c) s .layerEnabled none)
      ∧ ((s.lay l).cr &&& 1 = 0 → ¬o.x < 256 → FaultsAtOnce (.setPaletteEntry l c) s .range none))
    ∧ (s.Issued (.setPalette l c) o →
      ((s.lay l).cr &&& 1 ≠ 0 → FaultsAtOnce (.setPalette l c) s .layerEnabled none)
      ∧ ((s.lay l).cr &&& 1 = 0 → ¬o.y ≤ 256 → FaultsAtOnce (.setPalette l c) s .range none)
      ∧ ((s.lay l).cr &&& 1 = 0 → o.y ≤ 256 → o.x = 0 → o.y ≠ 0 → FaultsAtOnce (.setPalette l c) s .null none))
    ∧ (s.Issued (.setWindow l c) o →
      (o.x = 0 → FaultsAtOnce (.setWindow l c) s .null none)
      ∧ (o.x ≠ 0 → aligned4 o.x = true → windowOk s.activeWindow (windowAt s.mem o.x) = false →
        FaultsAtOnce (.setWindow l c) s .window none))
    ∧ (s.Issued (.setInvalidWindow l c) o → windowOk s.activeWindow ⟨0, 0, 0, 0⟩ = false →
      FaultsAtOnce (.setInvalidWindow l c) s .window none)
    ∧ (∀ i, i = .getWindow l c ∨ i = .getFrame l c ∨ i = .getLayer l c → s.Issued i o → o.x = 0 →
      FaultsAtOnce i s .null none)
    ∧ (s.Issued (.setFrame l c) o →
      (o.x = 0 → FaultsAtOnce (.setFrame l c) s .null none)
      ∧ (o.x ≠ 0 → aligned4 o.x = true → s.cfg = 0 → FaultsAtOnce (.setFrame l c) s .state none)
      ∧ (o.x ≠ 0 → aligned4 o.x = true → s.cfg ≠ 0 → ¬(frameAt s.mem o.x).fmt ≤ 7 →
        FaultsAtOnce (.setFrame l c) s .range none)
      ∧ (o.x ≠ 0 → aligned4 o.x = true → s.cfg ≠ 0 → aligned4 s.cfg = true → (frameAt s.mem o.x).fmt ≤ 7 →
        frameOk (s.mem.readLe s.cfg 2) (s.mem.readLe (s.cfg + 2) 2) (frameAt s.mem o.x) = false →
        FaultsAtOnce (.setFrame l c) s .geometry none))
    ∧ (s.Issued (.setLayer l c) o → recordReadable o.x = true →
      (s.cfg = 0 → FaultsAtOnce (.setLayer l c) s .state none)
      ∧ (s.cfg ≠ 0 → ¬(specAt s.mem o.x).frame.fmt ≤ 7 → FaultsAtOnce (.setLayer l c) s .range none)
      ∧ (s.cfg ≠ 0 → aligned4 s.cfg = true →
        ∀ e s', s.specFault l (s.mem.readLe s.cfg 2) (s.mem.readLe (s.cfg + 2) 2) (specAt s.mem o.x) = some (e, s') →
          FaultsLeaving (.setLayer l c) s s' e none)))
  ∧ (∀ (o : Operands) (s : State), s.par.checks = true →
    (s.Issued .bpp o → ¬o.x ≤ 7 → FaultsAtOnce .bpp s .range none)
    ∧ (∀ i, i = .toArgb8888 ∨ i = .fromArgb8888 → s.Issued i o → ¬o.y ≤ 7 → FaultsAtOnce i s .range none))
  ∧ (∀ (c : Form) (o : Operands) (s : State), s.par.checks = true → s.MayRunS c → s.Issued (.start c) o → s.drvState = .stop →
    (o.x = 0 → FaultsAtOnce (.start c) s .null none)
    ∧ (o.x ≠ 0 → aligned4 o.x = true → timingsOk (configAt s.mem o.x) = false →
      FaultsAfter (.start c) s .range none fun t =>
        t.events = s.events ++ [.commit ((s.srcr ||| 1) &&& 3), .fault .range] ∧ t.drvState = .stop ∧ t.cfg = o.x
          ∧ t.ier = 0 ∧ t.shadow.gcr = s.shadow.gcr &&& 0xF0017770#32 ∧ t.active.gcr = t.shadow.gcr
          ∧ t.shadow.l1 = s.shadow.l1 ∧ t.shadow.l2 = s.shadow.l2 ∧ t.shadow.bccr = s.shadow.bccr
          ∧ t.activeWindow = s.activeWindow ∧ t.nvicEv = s.nvicEv ∧ t.nvicEr = s.nvicEr ∧ t.mem = s.mem)
    ∧ ∀ d, d = configAt s.mem o.x → o.x ≠ 0 → aligned4 o.x = true → timingsOk d = true → recordReadable d.bgSpec = true →
      (∀ e s', (s.timed o.x d).specFault .l1 d.screenWidth d.screenHeight (specAt s.mem d.bgSpec) = some (e, s') →
        FaultsLeaving (.start c) s s' e none)
      ∧ (specReadable s.mem d.bgSpec = true → recordReadable d.fgSpec = true →
        (s.timed o.x d).specFault .l1 d.screenWidth d.screenHeight (specAt s.mem d.bgSpec) = none →
        ∀ e s', ((s.timed o.x d).putSpec .l1 (specAt s.mem d.bgSpec)).specFault .l2 d.screenWidth d.screenHeight
            (specAt s.mem d.fgSpec) = some (e, s') →
          FaultsLeaving (.start c) s s' e none))
  ∧ ∀ (o : Operands) (s : State), s.par.checks = true → s.ctx = .thread →
    (s.Issued .pnlStart o → s.pnlState = .stop → o.x = 0 → FaultsAtOnce .pnlStart s .null none)
    ∧ ∀ i, i = .pnlWriteChunk ∨ i = .pnlReadChunk → s.Issued i o → s.pnlState = .active →
      (o.y = 0 → FaultsAtOnce i s .range none) ∧ (o.y ≠ 0 → o.x = 0 → FaultsAtOnce i s .null none)

/-- R17, R105, R306, R314, R326, R335, R336, R383, R392, R393: without CHECKS a command given a null record, palette, configuration
or buffer pointer that it must read or write faults with F_CRASH: the readers before anything is written, the panel's chunk
commands after D/CX is driven, PNL_READ_CHUNK after the bytes are received, none of which it stores; and so do SET_FRAME and
SET_LAYER with no configuration held. A record or palette pointer that is no multiple of 4 leaves the agent without a step,
whatever CHECKS is. A null spec_ptr is the default specification. A layer record whose window would lie at address 0 faults with
F_CRASH there, whatever CHECKS is, GET_LAYER's frame written (log 20). That the marks have no info is the model's choice (log
33). -/
def Obligations.BadPointers : Prop :=
  (∀ (l : Layer) (c : Form) (o : Operands) (s : State), s.MayRunI c →
    (∀ i, i = .setWindow l c ∨ i = .getWindow l c ∨ i = .setFrame l c ∨ i = .getFrame l c ∨ i = .getLayer l c →
      s.Issued i o →
        (s.par.checks = false → o.x = 0 → FaultsAtOnce i s .crash none)
        ∧ (aligned4 o.x = false → exec i s = .fault .misaligned))
    ∧ (s.Issued (.setPalette l c) o → o.y ≠ 0 →
      (s.par.checks = false → o.x = 0 → FaultsAtOnce (.setPalette l c) s .crash none)
      ∧ (s.Passes ((s.lay l).cr &&& 1 == 0) → s.Passes (decide (o.y ≤ 256)) → aligned4 o.x = false →
        exec (.setPalette l c) s = .fault .misaligned))
    ∧ (s.Issued (.setLayer l c) o →
      (aligned4 o.x = false → exec (.setLayer l c) s = .fault .misaligned)
      ∧ (o.x + 16 = 0 → FaultsAtOnce (.setLayer l c) s .crash none)
      ∧ (recordReadable o.x = true → s.cfg ≠ 0 → aligned4 s.cfg = true →
        s.Passes (specOk (s.mem.readLe s.cfg 2) (s.mem.readLe (s.cfg + 2) 2) s.activeWindow (s.lay l).cr (specAt s.mem o.x)) →
        (specAt s.mem o.x).palLen ≠ 0 → aligned4 (specAt s.mem o.x).palPtr = false →
        exec (.setLayer l c) s = .fault .misaligned))
    ∧ (s.Issued (.getLayer l c) o → o.x + 16 = 0 →
      FaultsLeaving (.getLayer l c) s { s with mem := s.mem.putFrame o.x (frameOf (s.lay l)) } .crash none)
    ∧ (s.par.checks = false → s.cfg = 0 →
      (s.Issued (.setFrame l c) o → o.x ≠ 0 → aligned4 o.x = true → FaultsAtOnce (.setFrame l c) s .crash none)
      ∧ (s.Issued (.setLayer l c) o → recordReadable o.x = true → FaultsAtOnce (.setLayer l c) s .crash none)))
  ∧ (∀ (c : Form) (o : Operands) (s : State), s.MayRunS c → s.Issued (.start c) o → s.Passes (s.drvState == .stop) →
    (s.par.checks = false → o.x = 0 → FaultsAtOnce (.start c) s .crash none)
    ∧ (aligned4 o.x = false → exec (.start c) s = .fault .misaligned))
  ∧ ∀ (o : Operands) (s : State),
    (s.Issued .pnlStart o → s.Passes (s.ctx == .thread) → s.Passes (s.pnlState == .stop) →
      (s.par.checks = false → o.x = 0 → FaultsAtOnce .pnlStart s .crash none)
      ∧ (aligned4 o.x = false → exec .pnlStart s = .fault .misaligned))
    ∧ (s.Issued .pnlWriteChunk o → s.par.checks = false → o.x = 0 → o.y ≠ 0 →
      FaultsAfter .pnlWriteChunk s .crash none fun t =>
        t.events = s.events ++ [.fault .crash] ∧ t.dcx = .high ∧ t.wire = s.wire ∧ t.mem = s.mem)
    ∧ (s.Issued .pnlReadChunk o → s.par.checks = false → o.x = 0 → o.y ≠ 0 →
      FaultsAfter .pnlReadChunk s .crash none fun t =>
        t.events = s.events ++ [.fault .crash] ∧ t.dcx = .high
          ∧ t.wire = (({ s with dcx := .high } : State).receiveN o.y.toNat).wire ∧ t.mem = s.mem)

-- ==== frames over every run of a command ====

/-- R16, R100: a command that writes no record leaves every byte of host memory, wherever it goes on from and whatever the
schedule does during it. -/
def Obligations.MemoryUnchanged : Prop :=
  ∀ (i : Instr) (s t : State), i.writesMemory = false → exec i s = .next t → t.mem = s.mem

/-- R315, R325, R335, R393: a command that writes a record leaves every byte outside it: 8 bytes at out_ptr for a window, 16
for a frame, 48 for a layer but for byte 33, n bytes at buf for a chunk. -/
def Obligations.RecordFrame : Prop :=
  ∀ (l : Layer) (f : Form) (s t : State) (c : Cell), s.curCell = some c →
    (exec (.getWindow l f) s = .next t → ∀ a, inBytes c.ops.x 8 a = false → t.mem.byteAt a = s.mem.byteAt a)
    ∧ (exec (.getFrame l f) s = .next t → ∀ a, inBytes c.ops.x 16 a = false → t.mem.byteAt a = s.mem.byteAt a)
    ∧ (exec (.getLayer l f) s = .next t →
      ∀ a, inBytes c.ops.x 48 a = false ∨ a = c.ops.x + 33 → t.mem.byteAt a = s.mem.byteAt a)
    ∧ (exec .pnlReadChunk s = .next t → ∀ a, inBytes c.ops.x c.ops.y.toNat a = false → t.mem.byteAt a = s.mem.byteAt a)

/-- R395, its writes: no LTDC command or handler changes panel state or the wire, and no panel command changes LTDC state,
whatever the schedule; what the raster agent alone may change during a panel command stays too when it is not scheduled. What
either side reads is not stated. -/
def Obligations.PanelAndLtdcApart : Prop :=
  ∀ (i : Instr) (s t : State), exec i s = .next t →
    (i.isPanel = false →
      t.pnlState = s.pnlState ∧ t.pnlCfg = s.pnlCfg ∧ t.pnlScratch = s.pnlScratch ∧ t.pnlOwner = s.pnlOwner ∧ t.cs = s.cs
        ∧ t.dcx = s.dcx ∧ t.wire = s.wire)
    ∧ (i.isPanel = true →
      t.drvState = s.drvState ∧ t.activeWindow = s.activeWindow ∧ t.waiter = s.waiter ∧ t.cfg = s.cfg
        ∧ t.lockHolder = s.lockHolder ∧ t.ltdcOwner = s.ltdcOwner ∧ t.nvicEv = s.nvicEv ∧ t.nvicEr = s.nvicEr
        ∧ t.wakeEv = s.wakeEv ∧ t.wakeEr = s.wakeEr ∧ t.shadow = s.shadow ∧ t.clutShadow = s.clutShadow ∧ t.ier = s.ier
        ∧ t.lipcr = s.lipcr
        ∧ (s.sched = [] → t.active = s.active ∧ t.clutActive = s.clutActive ∧ t.srcr = s.srcr ∧ t.isr = s.isr))

/-- R67, R510: a command that makes no reload leaves every active register and the active palettes as they were, when the
raster agent is not scheduled during it. LIPCR and SRCR have no active copy: SET_LINE_POS and START_RELOAD write them at once
(R205, R265). -/
def Obligations.ShadowWritesAreInvisible : Prop :=
  ∀ (i : Instr) (s t : State), i.reloads = false → s.sched = [] → exec i s = .next t →
    t.active = s.active ∧ t.clutActive = s.clutActive

/-- R32, R212: with CHECKS, every command and handler that starts now and is not interleaved with another agent takes
drv_state along the path UNINIT to STOP to READY to and from ACTIVE, and READY to STOP. -/
def Obligations.DriverStatePath : Prop :=
  ∀ (i : Instr) (s t : State) (c : Cell),
    s.par.checks = true → s.sched = [] → s.curCell = some c → c.log = [] → exec i s = .next t →
      s.drvState.mayBecome t.drvState = true

-- ==== the micro-step ====

/-- R8, R20, R31, R106, R420: ENABLE_LAYER's locked form is a read and a write, each a micro-step, and under the schedule `go`,
`pause` a turn is one of them (log 1): its core reads at micro-step 2 and writes at micro-step 3, and a commit scheduled between
the two comes between them. The micro-steps' numbers and the cell's log of values are log 3's. -/
def Obligations.EnableLayerInMicroSteps : Prop :=
  ∀ (l : Layer) (o : Operands) (s : State) (q : List Slot),
    (s.sched = .go :: .pause :: q → s.curCell = some ⟨encode (.enableLayer l .locked), o, 2, [0, 0], none⟩ →
      exec (.enableLayer l .locked) s
        = .next ({ s with sched := q }.suspend ⟨encode (.enableLayer l .locked), o, 3, [(s.lay l).cr, 0, 0], none⟩))
    ∧ (∀ v, s.sched = .go :: q → s.curCell = some ⟨encode (.enableLayer l .locked), o, 3, [v, 0, 0], none⟩ →
      exec (.enableLayer l .locked) s
        = .next (({ s with sched := q }.regWrite (.lay l .cr) (v ||| 1)).finish (encode (.enableLayer l .locked)) .unit))
    ∧ (s.sched = .go :: .raster .commit :: .go :: q → s.commitEnabled = true →
      s.curCell = some ⟨encode (.enableLayer l .locked), o, 2, [0, 0], none⟩ →
      exec (.enableLayer l .locked) s
        = .next (({ s with sched := q }.commit.regWrite (.lay l .cr) ((s.lay l).cr ||| 1)).finish
          (encode (.enableLayer l .locked)) .unit))
end

