-- ==== Sys2Proof/Laws/Run.lean ====
section
/-! SUPPORT. What each kind of micro-step does when no other agent is scheduled to move: one equation per primitive of the
pseudocode, so that no proof unfolds `run`. -/

namespace Sys2Proof.Machine

variable {s : State} {c : Cell} {k : Prog}

theorem turn_quiet (h : s.sched = []) : s.turn = .go s := by
  cases s; simp only at h; subst h; rfl

theorem run_done (v : ResultVal) (c : Cell) (s : State) : run (.done v) c s = .next (s.finish c.word v) := rfl

/-- What is done between two micro-steps has no boundary of its own (R8). -/
theorem run_within {g : State → Word} {d : Int} {k : Word → Prog} :
    run (.within g d k) c s = run (k (g s)) (c.jump d (g s)) s := rfl

theorem run_look {g : State → Word} {k : Word → Prog} : run (look g k) c s = run (k (g s)) (c.jump 0 (g s)) s := rfl

theorem run_jump {d : Int} : run (jump d k) c s = run k (c.jump d 0) s := rfl

theorem run_micro {m : State → Micro} {k : Word → Prog} (h : s.sched = []) :
    run (.micro m k) c s = match m s with
      | .ok r s' => run (k r) (c.push r) s'
      | .pause r s' => .next (s'.suspend (c.push r))
      | .hold w => .next (s.suspend { c with wait := some w })
      | .raise code info => .next (s.raise c code info)
      | .stuck f => .fault f := by
  simp only [run, turn_quiet h] <;> cases m s <;> rfl

theorem run_ok {m : State → Micro} {k : Word → Prog} {r : Word} {s' : State} (h : s.sched = []) (hm : m s = .ok r s') :
    run (.micro m k) c s = run (k r) (c.push r) s' := by
  simp only [run, turn_quiet h, hm]

theorem run_raise {m : State → Micro} {k : Word → Prog} {code : FaultCode} {info : Option CmdWord} (h : s.sched = [])
    (hm : m s = .raise code info) : run (.micro m k) c s = .next (s.raise c code info) := by
  simp only [run, turn_quiet h, hm]

theorem run_act {f : State → State} (h : s.sched = []) : run (act f k) c s = run k (c.push 0) (f s) :=
  run_ok h rfl

theorem run_rd {r : Reg} {k : Word → Prog} (h : s.sched = []) :
    run (rd r k) c s = run (k (s.regRead r)) (c.push (s.regRead r)) (s.afterRead r) :=
  run_ok h rfl

theorem run_wr {r : Reg} {v : Word} (h : s.sched = []) : run (wr r v k) c s = run k (c.push 0) (s.regWrite r v) :=
  run_act h

/-- A check passes when its condition holds or the build has no checks (R17). -/
theorem run_check_pass {p : State → Bool} {code : FaultCode} (h : s.sched = []) (hp : s.par.checks = false ∨ p s = true) :
    run (check p code k) c s = run k (c.push 0) s := by
  refine run_ok h ?_
  cases hp with
  | inl hp => simp [hp]
  | inr hp => simp [hp]

/-- A check fails when its condition does not hold and the build has checks (R17). -/
theorem run_check_fail {p : State → Bool} {code : FaultCode} (h : s.sched = []) (hc : s.par.checks = true)
    (hp : p s = false) : run (check p code k) c s = .next (s.raise c code none) :=
  run_raise h (by simp [hc, hp])

theorem run_checkB_pass {b : Bool} {code : FaultCode} (h : s.sched = []) (hp : s.par.checks = false ∨ b = true) :
    run (checkB b code k) c s = run k (c.push 0) s :=
  run_check_pass h hp

theorem run_checkB_fail {b : Bool} {code : FaultCode} (h : s.sched = []) (hc : s.par.checks = true) (hp : b = false) :
    run (checkB b code k) c s = .next (s.raise c code none) :=
  run_check_fail h hc hp

theorem run_crashCheck_pass {p : State → Bool} (h : s.sched = []) (hp : p s = true) :
    run (crashCheck p k) c s = run k (c.push 0) s :=
  run_ok h (by simp [hp])

theorem run_crashCheck_fail {p : State → Bool} (h : s.sched = []) (hp : p s = false) :
    run (crashCheck p k) c s = .next (s.raise c .crash none) :=
  run_raise h (by simp [hp])

theorem run_memRd {base : Word} {off n : Nat} {k : Word → Prog} (h : s.sched = []) (ha : aligned4 base = true) :
    run (memRd base off n k) c s = run (k (s.mem.readLe (base + BitVec.ofNat 32 off) n))
      (c.push (s.mem.readLe (base + BitVec.ofNat 32 off) n)) s :=
  run_ok h (by simp [readField, ha])

theorem run_cfgRd {off n : Nat} {k : Word → Prog} (h : s.sched = []) (hn : s.cfg ≠ 0) (ha : aligned4 s.cfg = true) :
    run (cfgRd off n k) c s = run (k (s.mem.readLe (s.cfg + BitVec.ofNat 32 off) n))
      (c.push (s.mem.readLe (s.cfg + BitVec.ofNat 32 off) n)) s :=
  run_ok h (by rw [if_neg hn]; simp [readField, ha])

/-- With no configuration held a read of it crashes (R17). -/
theorem run_cfgRd_null {off n : Nat} {k : Word → Prog} (h : s.sched = []) (hn : s.cfg = 0) :
    run (cfgRd off n k) c s = .next (s.raise c .crash none) :=
  run_raise h (by rw [if_pos hn])

theorem run_memWr {base v : Word} {off n : Nat} (h : s.sched = []) (ha : aligned4 base = true) :
    run (memWr base off n v k) c s
      = run k (c.push 0) { s with mem := s.mem.writeLe (base + BitVec.ofNat 32 off) n v } :=
  run_ok h (by simp [ha])

/-- A record at an address that is no multiple of 4 leaves the agent without a step (R105). -/
theorem run_memRd_misaligned {base : Word} {off n : Nat} {k : Word → Prog} (h : s.sched = []) (ha : aligned4 base = false) :
    run (memRd base off n k) c s = .fault .misaligned := by
  simp [memRd, run, turn_quiet h, readField, ha]

theorem run_byteRd {a : Word} {k : Byte → Prog} (h : s.sched = []) :
    run (byteRd a k) c s = run (k (s.mem.byteAt a)) (c.push ((s.mem.byteAt a).zeroExtend 32)) s := by
  have hb : ((s.mem.byteAt a).zeroExtend 32).truncate 8 = s.mem.byteAt a := by
    rw [BitVec.truncate_eq_setWidth]; simp
  have := run_ok (c := c) (m := fun s => .ok ((s.mem.byteAt a).zeroExtend 32) s) (k := fun r => k (r.truncate 8)) h rfl
  rw [hb] at this; exact this

theorem run_byteWr {a : Word} {b : Byte} (h : s.sched = []) :
    run (byteWr a b k) c s = run k (c.push 0) { s with mem := s.mem.set a.toNat b } :=
  run_act h

theorem run_spiTx {b : Byte} (h : s.sched = []) : run (spiTx b k) c s = run k (c.push 0) (s.addWire .tx b) := run_act h

theorem run_spiRx {k : Byte → Prog} (h : s.sched = []) :
    run (spiRx k) c s = run (k s.rxByte) (c.push (s.rxByte.zeroExtend 32)) s.receive := by
  have hb : (s.rxByte.zeroExtend 32).truncate 8 = s.rxByte := by
    rw [BitVec.truncate_eq_setWidth]; simp
  have := run_ok (c := c) (m := fun s => .ok (s.rxByte.zeroExtend 32) s.receive) (k := fun r => k (r.truncate 8)) h rfl
  rw [hb] at this; exact this

theorem run_holdUntil_free {p : State → Bool} {w : Wait} {f : State → State} (h : s.sched = []) (hp : p s = true) :
    run (holdUntil p w f k) c s = run k (c.push 0) (f s) :=
  run_ok h (by simp [hp])

theorem run_holdUntil_held {p : State → Bool} {w : Wait} {f : State → State} (h : s.sched = []) (hp : p s = false) :
    run (holdUntil p w f k) c s = .next (s.suspend { c with wait := some w }) := by
  simp [holdUntil, run, turn_quiet h, hp]

theorem self_thread (h : s.irq = []) : s.self = .thread s.cur := by simp [State.self, h]

/-- The running agent is told from the activations and the current thread alone. -/
theorem self_congr {s' : State} (hi : s'.irq = s.irq) (hc : s'.cur = s.cur) : s'.self = s.self := by
  simp [State.self, hi, hc]

theorem run_shim (h : s.sched = []) : run (shim k) c s = run k (c.push 0) s := run_act h

/-- Giving the lock up leaves the message of the running agent. -/
theorem wakeOf_letGo : s.letGo.wakeOf s.letGo.self = s.wakeOf s.self := by
  have hs : s.letGo.self = s.self := rfl
  rw [hs]; cases s.self with
  | thread t => rfl
  | irq v => cases v <;> rfl

/-- With a message waiting and the lock free a sleep ends at once (R206). -/
theorem run_sleep_woken (h : s.sched = []) (hw : (s.wakeOf s.self).isSome = true) :
    run (sleep k) c s = run k ((c.push 0).push 0) (s.letGo.takeBack s.self) := by
  rw [sleep, run_act h]
  exact run_holdUntil_free h (by simp only [State.wakeReady, wakeOf_letGo, hw]; rfl)

/-- With no message the sleeper stands at its second micro-step, the lock free (R206). -/
theorem run_sleep_parked (h : s.sched = []) (hw : s.wakeOf s.self = none) :
    run (sleep k) c s = .next (s.letGo.suspend { c.push 0 with wait := some .wake }) := by
  rw [sleep, run_act h]
  exact run_holdUntil_held h (by
    simp only [State.wakeReady, wakeOf_letGo, hw]; rfl)

theorem ctx_thread_iff : s.ctx = .thread ↔ s.irq = [] ∧ (s.threadAt s.cur).locked = false := by
  unfold State.ctx
  cases s.irq <;> simp

theorem ctx_locked_iff : s.ctx = .locked ↔ s.irq = [] ∧ (s.threadAt s.cur).locked = true := by
  unfold State.ctx
  cases s.irq <;> simp

theorem run_lockStep (h : s.sched = []) (hc : s.ctx = .thread) (hl : s.lockHolder = none) :
    run (lockStep k) c s = run k (c.push 0) (s.takeLock s.cur) :=
  run_ok h (by simp [hc, hl])

theorem run_lockStep_held (h : s.sched = []) (hc : s.ctx = .thread) (hl : s.lockHolder ≠ none) :
    run (lockStep k) c s = .next (s.suspend { c with wait := some .lock }) := by
  simp [lockStep, run, turn_quiet h, hc, hl]

theorem run_unlockStep (h : s.sched = []) : run (unlockStep k) c s = run k (c.push 0) (s.releaseLock s.cur) := run_act h

/-- The poll ends at once when the bits are clear (R201, R206). -/
theorem run_poll_clear {mask : Word} (h : s.sched = []) (hb : hasBits s.srcr mask = false) :
    run (.poll .read mask k) c s = run k (c.push s.srcr).skipYield s := by
  simp [run, pollRead, turn_quiet h, State.regRead, hb]

/-- With a commit due and nothing scheduled, the yield lets the commit happen and the poll then ends (R201, R206, log 2). -/
theorem run_poll_commit {mask : Word} (h : s.sched = []) (hb : hasBits s.srcr mask = true) (hc : s.commitEnabled = true) :
    run (.poll .read mask k) c s = run k (c.push 0).skipYield (s.letGo.commit.takeBack s.self) := by
  have hz : hasBits s.letGo.commit.srcr mask = false := by simp [State.commit, hasBits]
  have h1 : s.letGo.commitEnabled = true := hc
  have hq : s.letGo.commit.srcr = 0 := rfl
  simp only [run, pollRead, turn_quiet h, State.regRead, hb, if_true, pollRelease]
  rw [if_pos ⟨h, h1, hz⟩, hq]
  rfl

/-- Under the schedule `go`, `pause` the turn is one micro-step of R8: what it leaves stands before the next one (log 1). -/
theorem run_one_micro {m : State → Micro} {k : Word → Prog} {m' : State → Micro} {k' : Word → Prog} {q : List Slot} {r : Word}
    {s' : State} (h : s.sched = .go :: .pause :: q) (hm : m { s with sched := .pause :: q } = .ok r s')
    (hq : s'.sched = .pause :: q) (hk : k r = .micro m' k') :
    run (.micro m k) c s = .next ({ s' with sched := q }.suspend (c.push r)) := by
  simp only [run, State.turn, h, settle, hm, hk, hq]

end Sys2Proof.Machine
end

