-- ==== Sys2Proof/Laws/State.lean ====
section
/-! SUPPORT. One lemma per field per update of State: what the named operations leave alone, and what the simple ones
write. -/

namespace Sys2Proof.Machine

-- ==== setThread ====

@[simp] theorem State.setThread_par (s : State) (t : Nat) (f : Thread → Thread) : (s.setThread t f).par = s.par := rfl
@[simp] theorem State.setThread_drvState (s : State) (t : Nat) (f : Thread → Thread) : (s.setThread t f).drvState = s.drvState := rfl
@[simp] theorem State.setThread_activeWindow (s : State) (t : Nat) (f : Thread → Thread) : (s.setThread t f).activeWindow = s.activeWindow := rfl
@[simp] theorem State.setThread_waiter (s : State) (t : Nat) (f : Thread → Thread) : (s.setThread t f).waiter = s.waiter := rfl
@[simp] theorem State.setThread_cfg (s : State) (t : Nat) (f : Thread → Thread) : (s.setThread t f).cfg = s.cfg := rfl
@[simp] theorem State.setThread_lockHolder (s : State) (t : Nat) (f : Thread → Thread) : (s.setThread t f).lockHolder = s.lockHolder := rfl
@[simp] theorem State.setThread_ltdcOwner (s : State) (t : Nat) (f : Thread → Thread) : (s.setThread t f).ltdcOwner = s.ltdcOwner := rfl
@[simp] theorem State.setThread_fault (s : State) (t : Nat) (f : Thread → Thread) : (s.setThread t f).fault = s.fault := rfl
@[simp] theorem State.setThread_nvicEv (s : State) (t : Nat) (f : Thread → Thread) : (s.setThread t f).nvicEv = s.nvicEv := rfl
@[simp] theorem State.setThread_nvicEr (s : State) (t : Nat) (f : Thread → Thread) : (s.setThread t f).nvicEr = s.nvicEr := rfl
@[simp] theorem State.setThread_shadow (s : State) (t : Nat) (f : Thread → Thread) : (s.setThread t f).shadow = s.shadow := rfl
@[simp] theorem State.setThread_active (s : State) (t : Nat) (f : Thread → Thread) : (s.setThread t f).active = s.active := rfl
@[simp] theorem State.setThread_srcr (s : State) (t : Nat) (f : Thread → Thread) : (s.setThread t f).srcr = s.srcr := rfl
@[simp] theorem State.setThread_ier (s : State) (t : Nat) (f : Thread → Thread) : (s.setThread t f).ier = s.ier := rfl
@[simp] theorem State.setThread_isr (s : State) (t : Nat) (f : Thread → Thread) : (s.setThread t f).isr = s.isr := rfl
@[simp] theorem State.setThread_lipcr (s : State) (t : Nat) (f : Thread → Thread) : (s.setThread t f).lipcr = s.lipcr := rfl
@[simp] theorem State.setThread_clutShadow (s : State) (t : Nat) (f : Thread → Thread) : (s.setThread t f).clutShadow = s.clutShadow := rfl
@[simp] theorem State.setThread_clutActive (s : State) (t : Nat) (f : Thread → Thread) : (s.setThread t f).clutActive = s.clutActive := rfl
@[simp] theorem State.setThread_pnlState (s : State) (t : Nat) (f : Thread → Thread) : (s.setThread t f).pnlState = s.pnlState := rfl
@[simp] theorem State.setThread_pnlCfg (s : State) (t : Nat) (f : Thread → Thread) : (s.setThread t f).pnlCfg = s.pnlCfg := rfl
@[simp] theorem State.setThread_pnlScratch (s : State) (t : Nat) (f : Thread → Thread) : (s.setThread t f).pnlScratch = s.pnlScratch := rfl
@[simp] theorem State.setThread_pnlOwner (s : State) (t : Nat) (f : Thread → Thread) : (s.setThread t f).pnlOwner = s.pnlOwner := rfl
@[simp] theorem State.setThread_cs (s : State) (t : Nat) (f : Thread → Thread) : (s.setThread t f).cs = s.cs := rfl
@[simp] theorem State.setThread_dcx (s : State) (t : Nat) (f : Thread → Thread) : (s.setThread t f).dcx = s.dcx := rfl
@[simp] theorem State.setThread_wire (s : State) (t : Nat) (f : Thread → Thread) : (s.setThread t f).wire = s.wire := rfl
@[simp] theorem State.setThread_events (s : State) (t : Nat) (f : Thread → Thread) : (s.setThread t f).events = s.events := rfl
@[simp] theorem State.setThread_irq (s : State) (t : Nat) (f : Thread → Thread) : (s.setThread t f).irq = s.irq := rfl
@[simp] theorem State.setThread_irqResults (s : State) (t : Nat) (f : Thread → Thread) : (s.setThread t f).irqResults = s.irqResults := rfl
@[simp] theorem State.setThread_wakeEv (s : State) (t : Nat) (f : Thread → Thread) : (s.setThread t f).wakeEv = s.wakeEv := rfl
@[simp] theorem State.setThread_wakeEr (s : State) (t : Nat) (f : Thread → Thread) : (s.setThread t f).wakeEr = s.wakeEr := rfl
@[simp] theorem State.setThread_cbBodies (s : State) (t : Nat) (f : Thread → Thread) : (s.setThread t f).cbBodies = s.cbBodies := rfl
@[simp] theorem State.setThread_mem (s : State) (t : Nat) (f : Thread → Thread) : (s.setThread t f).mem = s.mem := rfl
@[simp] theorem State.setThread_draws (s : State) (t : Nat) (f : Thread → Thread) : (s.setThread t f).draws = s.draws := rfl
@[simp] theorem State.setThread_cur (s : State) (t : Nat) (f : Thread → Thread) : (s.setThread t f).cur = s.cur := rfl
@[simp] theorem State.setThread_sched (s : State) (t : Nat) (f : Thread → Thread) : (s.setThread t f).sched = s.sched := rfl

-- ==== takeLock ====

@[simp] theorem State.takeLock_par (s : State) (t : Nat) : (s.takeLock t).par = s.par := rfl
@[simp] theorem State.takeLock_drvState (s : State) (t : Nat) : (s.takeLock t).drvState = s.drvState := rfl
@[simp] theorem State.takeLock_activeWindow (s : State) (t : Nat) : (s.takeLock t).activeWindow = s.activeWindow := rfl
@[simp] theorem State.takeLock_waiter (s : State) (t : Nat) : (s.takeLock t).waiter = s.waiter := rfl
@[simp] theorem State.takeLock_cfg (s : State) (t : Nat) : (s.takeLock t).cfg = s.cfg := rfl
@[simp] theorem State.takeLock_ltdcOwner (s : State) (t : Nat) : (s.takeLock t).ltdcOwner = s.ltdcOwner := rfl
@[simp] theorem State.takeLock_fault (s : State) (t : Nat) : (s.takeLock t).fault = s.fault := rfl
@[simp] theorem State.takeLock_nvicEv (s : State) (t : Nat) : (s.takeLock t).nvicEv = s.nvicEv := rfl
@[simp] theorem State.takeLock_nvicEr (s : State) (t : Nat) : (s.takeLock t).nvicEr = s.nvicEr := rfl
@[simp] theorem State.takeLock_shadow (s : State) (t : Nat) : (s.takeLock t).shadow = s.shadow := rfl
@[simp] theorem State.takeLock_active (s : State) (t : Nat) : (s.takeLock t).active = s.active := rfl
@[simp] theorem State.takeLock_srcr (s : State) (t : Nat) : (s.takeLock t).srcr = s.srcr := rfl
@[simp] theorem State.takeLock_ier (s : State) (t : Nat) : (s.takeLock t).ier = s.ier := rfl
@[simp] theorem State.takeLock_isr (s : State) (t : Nat) : (s.takeLock t).isr = s.isr := rfl
@[simp] theorem State.takeLock_lipcr (s : State) (t : Nat) : (s.takeLock t).lipcr = s.lipcr := rfl
@[simp] theorem State.takeLock_clutShadow (s : State) (t : Nat) : (s.takeLock t).clutShadow = s.clutShadow := rfl
@[simp] theorem State.takeLock_clutActive (s : State) (t : Nat) : (s.takeLock t).clutActive = s.clutActive := rfl
@[simp] theorem State.takeLock_pnlState (s : State) (t : Nat) : (s.takeLock t).pnlState = s.pnlState := rfl
@[simp] theorem State.takeLock_pnlCfg (s : State) (t : Nat) : (s.takeLock t).pnlCfg = s.pnlCfg := rfl
@[simp] theorem State.takeLock_pnlScratch (s : State) (t : Nat) : (s.takeLock t).pnlScratch = s.pnlScratch := rfl
@[simp] theorem State.takeLock_pnlOwner (s : State) (t : Nat) : (s.takeLock t).pnlOwner = s.pnlOwner := rfl
@[simp] theorem State.takeLock_cs (s : State) (t : Nat) : (s.takeLock t).cs = s.cs := rfl
@[simp] theorem State.takeLock_dcx (s : State) (t : Nat) : (s.takeLock t).dcx = s.dcx := rfl
@[simp] theorem State.takeLock_wire (s : State) (t : Nat) : (s.takeLock t).wire = s.wire := rfl
@[simp] theorem State.takeLock_events (s : State) (t : Nat) : (s.takeLock t).events = s.events := rfl
@[simp] theorem State.takeLock_irq (s : State) (t : Nat) : (s.takeLock t).irq = s.irq := rfl
@[simp] theorem State.takeLock_irqResults (s : State) (t : Nat) : (s.takeLock t).irqResults = s.irqResults := rfl
@[simp] theorem State.takeLock_wakeEv (s : State) (t : Nat) : (s.takeLock t).wakeEv = s.wakeEv := rfl
@[simp] theorem State.takeLock_wakeEr (s : State) (t : Nat) : (s.takeLock t).wakeEr = s.wakeEr := rfl
@[simp] theorem State.takeLock_cbBodies (s : State) (t : Nat) : (s.takeLock t).cbBodies = s.cbBodies := rfl
@[simp] theorem State.takeLock_mem (s : State) (t : Nat) : (s.takeLock t).mem = s.mem := rfl
@[simp] theorem State.takeLock_draws (s : State) (t : Nat) : (s.takeLock t).draws = s.draws := rfl
@[simp] theorem State.takeLock_cur (s : State) (t : Nat) : (s.takeLock t).cur = s.cur := rfl
@[simp] theorem State.takeLock_sched (s : State) (t : Nat) : (s.takeLock t).sched = s.sched := rfl

-- ==== releaseLock ====

@[simp] theorem State.releaseLock_par (s : State) (t : Nat) : (s.releaseLock t).par = s.par := rfl
@[simp] theorem State.releaseLock_drvState (s : State) (t : Nat) : (s.releaseLock t).drvState = s.drvState := rfl
@[simp] theorem State.releaseLock_activeWindow (s : State) (t : Nat) : (s.releaseLock t).activeWindow = s.activeWindow := rfl
@[simp] theorem State.releaseLock_waiter (s : State) (t : Nat) : (s.releaseLock t).waiter = s.waiter := rfl
@[simp] theorem State.releaseLock_cfg (s : State) (t : Nat) : (s.releaseLock t).cfg = s.cfg := rfl
@[simp] theorem State.releaseLock_ltdcOwner (s : State) (t : Nat) : (s.releaseLock t).ltdcOwner = s.ltdcOwner := rfl
@[simp] theorem State.releaseLock_fault (s : State) (t : Nat) : (s.releaseLock t).fault = s.fault := rfl
@[simp] theorem State.releaseLock_nvicEv (s : State) (t : Nat) : (s.releaseLock t).nvicEv = s.nvicEv := rfl
@[simp] theorem State.releaseLock_nvicEr (s : State) (t : Nat) : (s.releaseLock t).nvicEr = s.nvicEr := rfl
@[simp] theorem State.releaseLock_shadow (s : State) (t : Nat) : (s.releaseLock t).shadow = s.shadow := rfl
@[simp] theorem State.releaseLock_active (s : State) (t : Nat) : (s.releaseLock t).active = s.active := rfl
@[simp] theorem State.releaseLock_srcr (s : State) (t : Nat) : (s.releaseLock t).srcr = s.srcr := rfl
@[simp] theorem State.releaseLock_ier (s : State) (t : Nat) : (s.releaseLock t).ier = s.ier := rfl
@[simp] theorem State.releaseLock_isr (s : State) (t : Nat) : (s.releaseLock t).isr = s.isr := rfl
@[simp] theorem State.releaseLock_lipcr (s : State) (t : Nat) : (s.releaseLock t).lipcr = s.lipcr := rfl
@[simp] theorem State.releaseLock_clutShadow (s : State) (t : Nat) : (s.releaseLock t).clutShadow = s.clutShadow := rfl
@[simp] theorem State.releaseLock_clutActive (s : State) (t : Nat) : (s.releaseLock t).clutActive = s.clutActive := rfl
@[simp] theorem State.releaseLock_pnlState (s : State) (t : Nat) : (s.releaseLock t).pnlState = s.pnlState := rfl
@[simp] theorem State.releaseLock_pnlCfg (s : State) (t : Nat) : (s.releaseLock t).pnlCfg = s.pnlCfg := rfl
@[simp] theorem State.releaseLock_pnlScratch (s : State) (t : Nat) : (s.releaseLock t).pnlScratch = s.pnlScratch := rfl
@[simp] theorem State.releaseLock_pnlOwner (s : State) (t : Nat) : (s.releaseLock t).pnlOwner = s.pnlOwner := rfl
@[simp] theorem State.releaseLock_cs (s : State) (t : Nat) : (s.releaseLock t).cs = s.cs := rfl
@[simp] theorem State.releaseLock_dcx (s : State) (t : Nat) : (s.releaseLock t).dcx = s.dcx := rfl
@[simp] theorem State.releaseLock_wire (s : State) (t : Nat) : (s.releaseLock t).wire = s.wire := rfl
@[simp] theorem State.releaseLock_events (s : State) (t : Nat) : (s.releaseLock t).events = s.events := rfl
@[simp] theorem State.releaseLock_irq (s : State) (t : Nat) : (s.releaseLock t).irq = s.irq := rfl
@[simp] theorem State.releaseLock_irqResults (s : State) (t : Nat) : (s.releaseLock t).irqResults = s.irqResults := rfl
@[simp] theorem State.releaseLock_wakeEv (s : State) (t : Nat) : (s.releaseLock t).wakeEv = s.wakeEv := rfl
@[simp] theorem State.releaseLock_wakeEr (s : State) (t : Nat) : (s.releaseLock t).wakeEr = s.wakeEr := rfl
@[simp] theorem State.releaseLock_cbBodies (s : State) (t : Nat) : (s.releaseLock t).cbBodies = s.cbBodies := rfl
@[simp] theorem State.releaseLock_mem (s : State) (t : Nat) : (s.releaseLock t).mem = s.mem := rfl
@[simp] theorem State.releaseLock_draws (s : State) (t : Nat) : (s.releaseLock t).draws = s.draws := rfl
@[simp] theorem State.releaseLock_cur (s : State) (t : Nat) : (s.releaseLock t).cur = s.cur := rfl
@[simp] theorem State.releaseLock_sched (s : State) (t : Nat) : (s.releaseLock t).sched = s.sched := rfl

-- ==== letGo ====

@[simp] theorem State.letGo_par (s : State) : (s.letGo).par = s.par := rfl
@[simp] theorem State.letGo_drvState (s : State) : (s.letGo).drvState = s.drvState := rfl
@[simp] theorem State.letGo_activeWindow (s : State) : (s.letGo).activeWindow = s.activeWindow := rfl
@[simp] theorem State.letGo_waiter (s : State) : (s.letGo).waiter = s.waiter := rfl
@[simp] theorem State.letGo_cfg (s : State) : (s.letGo).cfg = s.cfg := rfl
@[simp] theorem State.letGo_ltdcOwner (s : State) : (s.letGo).ltdcOwner = s.ltdcOwner := rfl
@[simp] theorem State.letGo_fault (s : State) : (s.letGo).fault = s.fault := rfl
@[simp] theorem State.letGo_nvicEv (s : State) : (s.letGo).nvicEv = s.nvicEv := rfl
@[simp] theorem State.letGo_nvicEr (s : State) : (s.letGo).nvicEr = s.nvicEr := rfl
@[simp] theorem State.letGo_shadow (s : State) : (s.letGo).shadow = s.shadow := rfl
@[simp] theorem State.letGo_active (s : State) : (s.letGo).active = s.active := rfl
@[simp] theorem State.letGo_srcr (s : State) : (s.letGo).srcr = s.srcr := rfl
@[simp] theorem State.letGo_ier (s : State) : (s.letGo).ier = s.ier := rfl
@[simp] theorem State.letGo_isr (s : State) : (s.letGo).isr = s.isr := rfl
@[simp] theorem State.letGo_lipcr (s : State) : (s.letGo).lipcr = s.lipcr := rfl
@[simp] theorem State.letGo_clutShadow (s : State) : (s.letGo).clutShadow = s.clutShadow := rfl
@[simp] theorem State.letGo_clutActive (s : State) : (s.letGo).clutActive = s.clutActive := rfl
@[simp] theorem State.letGo_pnlState (s : State) : (s.letGo).pnlState = s.pnlState := rfl
@[simp] theorem State.letGo_pnlCfg (s : State) : (s.letGo).pnlCfg = s.pnlCfg := rfl
@[simp] theorem State.letGo_pnlScratch (s : State) : (s.letGo).pnlScratch = s.pnlScratch := rfl
@[simp] theorem State.letGo_pnlOwner (s : State) : (s.letGo).pnlOwner = s.pnlOwner := rfl
@[simp] theorem State.letGo_cs (s : State) : (s.letGo).cs = s.cs := rfl
@[simp] theorem State.letGo_dcx (s : State) : (s.letGo).dcx = s.dcx := rfl
@[simp] theorem State.letGo_wire (s : State) : (s.letGo).wire = s.wire := rfl
@[simp] theorem State.letGo_events (s : State) : (s.letGo).events = s.events := rfl
@[simp] theorem State.letGo_threads (s : State) : (s.letGo).threads = s.threads := rfl
@[simp] theorem State.letGo_irq (s : State) : (s.letGo).irq = s.irq := rfl
@[simp] theorem State.letGo_irqResults (s : State) : (s.letGo).irqResults = s.irqResults := rfl
@[simp] theorem State.letGo_wakeEv (s : State) : (s.letGo).wakeEv = s.wakeEv := rfl
@[simp] theorem State.letGo_wakeEr (s : State) : (s.letGo).wakeEr = s.wakeEr := rfl
@[simp] theorem State.letGo_cbBodies (s : State) : (s.letGo).cbBodies = s.cbBodies := rfl
@[simp] theorem State.letGo_mem (s : State) : (s.letGo).mem = s.mem := rfl
@[simp] theorem State.letGo_draws (s : State) : (s.letGo).draws = s.draws := rfl
@[simp] theorem State.letGo_cur (s : State) : (s.letGo).cur = s.cur := rfl
@[simp] theorem State.letGo_sched (s : State) : (s.letGo).sched = s.sched := rfl

-- ==== takeBack ====

@[simp] theorem State.takeBack_par (s : State) (a : Agent) : (s.takeBack a).par = s.par := rfl
@[simp] theorem State.takeBack_drvState (s : State) (a : Agent) : (s.takeBack a).drvState = s.drvState := rfl
@[simp] theorem State.takeBack_activeWindow (s : State) (a : Agent) : (s.takeBack a).activeWindow = s.activeWindow := rfl
@[simp] theorem State.takeBack_waiter (s : State) (a : Agent) : (s.takeBack a).waiter = s.waiter := rfl
@[simp] theorem State.takeBack_cfg (s : State) (a : Agent) : (s.takeBack a).cfg = s.cfg := rfl
@[simp] theorem State.takeBack_ltdcOwner (s : State) (a : Agent) : (s.takeBack a).ltdcOwner = s.ltdcOwner := rfl
@[simp] theorem State.takeBack_fault (s : State) (a : Agent) : (s.takeBack a).fault = s.fault := rfl
@[simp] theorem State.takeBack_nvicEv (s : State) (a : Agent) : (s.takeBack a).nvicEv = s.nvicEv := rfl
@[simp] theorem State.takeBack_nvicEr (s : State) (a : Agent) : (s.takeBack a).nvicEr = s.nvicEr := rfl
@[simp] theorem State.takeBack_shadow (s : State) (a : Agent) : (s.takeBack a).shadow = s.shadow := rfl
@[simp] theorem State.takeBack_active (s : State) (a : Agent) : (s.takeBack a).active = s.active := rfl
@[simp] theorem State.takeBack_srcr (s : State) (a : Agent) : (s.takeBack a).srcr = s.srcr := rfl
@[simp] theorem State.takeBack_ier (s : State) (a : Agent) : (s.takeBack a).ier = s.ier := rfl
@[simp] theorem State.takeBack_isr (s : State) (a : Agent) : (s.takeBack a).isr = s.isr := rfl
@[simp] theorem State.takeBack_lipcr (s : State) (a : Agent) : (s.takeBack a).lipcr = s.lipcr := rfl
@[simp] theorem State.takeBack_clutShadow (s : State) (a : Agent) : (s.takeBack a).clutShadow = s.clutShadow := rfl
@[simp] theorem State.takeBack_clutActive (s : State) (a : Agent) : (s.takeBack a).clutActive = s.clutActive := rfl
@[simp] theorem State.takeBack_pnlState (s : State) (a : Agent) : (s.takeBack a).pnlState = s.pnlState := rfl
@[simp] theorem State.takeBack_pnlCfg (s : State) (a : Agent) : (s.takeBack a).pnlCfg = s.pnlCfg := rfl
@[simp] theorem State.takeBack_pnlScratch (s : State) (a : Agent) : (s.takeBack a).pnlScratch = s.pnlScratch := rfl
@[simp] theorem State.takeBack_pnlOwner (s : State) (a : Agent) : (s.takeBack a).pnlOwner = s.pnlOwner := rfl
@[simp] theorem State.takeBack_cs (s : State) (a : Agent) : (s.takeBack a).cs = s.cs := rfl
@[simp] theorem State.takeBack_dcx (s : State) (a : Agent) : (s.takeBack a).dcx = s.dcx := rfl
@[simp] theorem State.takeBack_wire (s : State) (a : Agent) : (s.takeBack a).wire = s.wire := rfl
@[simp] theorem State.takeBack_events (s : State) (a : Agent) : (s.takeBack a).events = s.events := rfl
@[simp] theorem State.takeBack_threads (s : State) (a : Agent) : (s.takeBack a).threads = s.threads := rfl
@[simp] theorem State.takeBack_irq (s : State) (a : Agent) : (s.takeBack a).irq = s.irq := rfl
@[simp] theorem State.takeBack_irqResults (s : State) (a : Agent) : (s.takeBack a).irqResults = s.irqResults := rfl
@[simp] theorem State.takeBack_wakeEv (s : State) (a : Agent) : (s.takeBack a).wakeEv = s.wakeEv := rfl
@[simp] theorem State.takeBack_wakeEr (s : State) (a : Agent) : (s.takeBack a).wakeEr = s.wakeEr := rfl
@[simp] theorem State.takeBack_cbBodies (s : State) (a : Agent) : (s.takeBack a).cbBodies = s.cbBodies := rfl
@[simp] theorem State.takeBack_mem (s : State) (a : Agent) : (s.takeBack a).mem = s.mem := rfl
@[simp] theorem State.takeBack_draws (s : State) (a : Agent) : (s.takeBack a).draws = s.draws := rfl
@[simp] theorem State.takeBack_cur (s : State) (a : Agent) : (s.takeBack a).cur = s.cur := rfl
@[simp] theorem State.takeBack_sched (s : State) (a : Agent) : (s.takeBack a).sched = s.sched := rfl

-- ==== setWake ====

@[simp] theorem State.setWake_par (s : State) (a : Agent) (m : Option Msg) : (s.setWake a m).par = s.par := by
  unfold State.setWake; split <;> rfl
@[simp] theorem State.setWake_drvState (s : State) (a : Agent) (m : Option Msg) : (s.setWake a m).drvState = s.drvState := by
  unfold State.setWake; split <;> rfl
@[simp] theorem State.setWake_activeWindow (s : State) (a : Agent) (m : Option Msg) : (s.setWake a m).activeWindow = s.activeWindow := by
  unfold State.setWake; split <;> rfl
@[simp] theorem State.setWake_waiter (s : State) (a : Agent) (m : Option Msg) : (s.setWake a m).waiter = s.waiter := by
  unfold State.setWake; split <;> rfl
@[simp] theorem State.setWake_cfg (s : State) (a : Agent) (m : Option Msg) : (s.setWake a m).cfg = s.cfg := by
  unfold State.setWake; split <;> rfl
@[simp] theorem State.setWake_lockHolder (s : State) (a : Agent) (m : Option Msg) : (s.setWake a m).lockHolder = s.lockHolder := by
  unfold State.setWake; split <;> rfl
@[simp] theorem State.setWake_ltdcOwner (s : State) (a : Agent) (m : Option Msg) : (s.setWake a m).ltdcOwner = s.ltdcOwner := by
  unfold State.setWake; split <;> rfl
@[simp] theorem State.setWake_fault (s : State) (a : Agent) (m : Option Msg) : (s.setWake a m).fault = s.fault := by
  unfold State.setWake; split <;> rfl
@[simp] theorem State.setWake_nvicEv (s : State) (a : Agent) (m : Option Msg) : (s.setWake a m).nvicEv = s.nvicEv := by
  unfold State.setWake; split <;> rfl
@[simp] theorem State.setWake_nvicEr (s : State) (a : Agent) (m : Option Msg) : (s.setWake a m).nvicEr = s.nvicEr := by
  unfold State.setWake; split <;> rfl
@[simp] theorem State.setWake_shadow (s : State) (a : Agent) (m : Option Msg) : (s.setWake a m).shadow = s.shadow := by
  unfold State.setWake; split <;> rfl
@[simp] theorem State.setWake_active (s : State) (a : Agent) (m : Option Msg) : (s.setWake a m).active = s.active := by
  unfold State.setWake; split <;> rfl
@[simp] theorem State.setWake_srcr (s : State) (a : Agent) (m : Option Msg) : (s.setWake a m).srcr = s.srcr := by
  unfold State.setWake; split <;> rfl
@[simp] theorem State.setWake_ier (s : State) (a : Agent) (m : Option Msg) : (s.setWake a m).ier = s.ier := by
  unfold State.setWake; split <;> rfl
@[simp] theorem State.setWake_isr (s : State) (a : Agent) (m : Option Msg) : (s.setWake a m).isr = s.isr := by
  unfold State.setWake; split <;> rfl
@[simp] theorem State.setWake_lipcr (s : State) (a : Agent) (m : Option Msg) : (s.setWake a m).lipcr = s.lipcr := by
  unfold State.setWake; split <;> rfl
@[simp] theorem State.setWake_clutShadow (s : State) (a : Agent) (m : Option Msg) : (s.setWake a m).clutShadow = s.clutShadow := by
  unfold State.setWake; split <;> rfl
@[simp] theorem State.setWake_clutActive (s : State) (a : Agent) (m : Option Msg) : (s.setWake a m).clutActive = s.clutActive := by
  unfold State.setWake; split <;> rfl
@[simp] theorem State.setWake_pnlState (s : State) (a : Agent) (m : Option Msg) : (s.setWake a m).pnlState = s.pnlState := by
  unfold State.setWake; split <;> rfl
@[simp] theorem State.setWake_pnlCfg (s : State) (a : Agent) (m : Option Msg) : (s.setWake a m).pnlCfg = s.pnlCfg := by
  unfold State.setWake; split <;> rfl
@[simp] theorem State.setWake_pnlScratch (s : State) (a : Agent) (m : Option Msg) : (s.setWake a m).pnlScratch = s.pnlScratch := by
  unfold State.setWake; split <;> rfl
@[simp] theorem State.setWake_pnlOwner (s : State) (a : Agent) (m : Option Msg) : (s.setWake a m).pnlOwner = s.pnlOwner := by
  unfold State.setWake; split <;> rfl
@[simp] theorem State.setWake_cs (s : State) (a : Agent) (m : Option Msg) : (s.setWake a m).cs = s.cs := by
  unfold State.setWake; split <;> rfl
@[simp] theorem State.setWake_dcx (s : State) (a : Agent) (m : Option Msg) : (s.setWake a m).dcx = s.dcx := by
  unfold State.setWake; split <;> rfl
@[simp] theorem State.setWake_wire (s : State) (a : Agent) (m : Option Msg) : (s.setWake a m).wire = s.wire := by
  unfold State.setWake; split <;> rfl
@[simp] theorem State.setWake_events (s : State) (a : Agent) (m : Option Msg) : (s.setWake a m).events = s.events := by
  unfold State.setWake; split <;> rfl
@[simp] theorem State.setWake_irq (s : State) (a : Agent) (m : Option Msg) : (s.setWake a m).irq = s.irq := by
  unfold State.setWake; split <;> rfl
@[simp] theorem State.setWake_irqResults (s : State) (a : Agent) (m : Option Msg) : (s.setWake a m).irqResults = s.irqResults := by
  unfold State.setWake; split <;> rfl
@[simp] theorem State.setWake_cbBodies (s : State) (a : Agent) (m : Option Msg) : (s.setWake a m).cbBodies = s.cbBodies := by
  unfold State.setWake; split <;> rfl
@[simp] theorem State.setWake_mem (s : State) (a : Agent) (m : Option Msg) : (s.setWake a m).mem = s.mem := by
  unfold State.setWake; split <;> rfl
@[simp] theorem State.setWake_draws (s : State) (a : Agent) (m : Option Msg) : (s.setWake a m).draws = s.draws := by
  unfold State.setWake; split <;> rfl
@[simp] theorem State.setWake_cur (s : State) (a : Agent) (m : Option Msg) : (s.setWake a m).cur = s.cur := by
  unfold State.setWake; split <;> rfl
@[simp] theorem State.setWake_sched (s : State) (a : Agent) (m : Option Msg) : (s.setWake a m).sched = s.sched := by
  unfold State.setWake; split <;> rfl

-- ==== addEvent ====

@[simp] theorem State.addEvent_par (s : State) (e : Event) : (s.addEvent e).par = s.par := rfl
@[simp] theorem State.addEvent_drvState (s : State) (e : Event) : (s.addEvent e).drvState = s.drvState := rfl
@[simp] theorem State.addEvent_activeWindow (s : State) (e : Event) : (s.addEvent e).activeWindow = s.activeWindow := rfl
@[simp] theorem State.addEvent_waiter (s : State) (e : Event) : (s.addEvent e).waiter = s.waiter := rfl
@[simp] theorem State.addEvent_cfg (s : State) (e : Event) : (s.addEvent e).cfg = s.cfg := rfl
@[simp] theorem State.addEvent_lockHolder (s : State) (e : Event) : (s.addEvent e).lockHolder = s.lockHolder := rfl
@[simp] theorem State.addEvent_ltdcOwner (s : State) (e : Event) : (s.addEvent e).ltdcOwner = s.ltdcOwner := rfl
@[simp] theorem State.addEvent_fault (s : State) (e : Event) : (s.addEvent e).fault = s.fault := rfl
@[simp] theorem State.addEvent_nvicEv (s : State) (e : Event) : (s.addEvent e).nvicEv = s.nvicEv := rfl
@[simp] theorem State.addEvent_nvicEr (s : State) (e : Event) : (s.addEvent e).nvicEr = s.nvicEr := rfl
@[simp] theorem State.addEvent_shadow (s : State) (e : Event) : (s.addEvent e).shadow = s.shadow := rfl
@[simp] theorem State.addEvent_active (s : State) (e : Event) : (s.addEvent e).active = s.active := rfl
@[simp] theorem State.addEvent_srcr (s : State) (e : Event) : (s.addEvent e).srcr = s.srcr := rfl
@[simp] theorem State.addEvent_ier (s : State) (e : Event) : (s.addEvent e).ier = s.ier := rfl
@[simp] theorem State.addEvent_isr (s : State) (e : Event) : (s.addEvent e).isr = s.isr := rfl
@[simp] theorem State.addEvent_lipcr (s : State) (e : Event) : (s.addEvent e).lipcr = s.lipcr := rfl
@[simp] theorem State.addEvent_clutShadow (s : State) (e : Event) : (s.addEvent e).clutShadow = s.clutShadow := rfl
@[simp] theorem State.addEvent_clutActive (s : State) (e : Event) : (s.addEvent e).clutActive = s.clutActive := rfl
@[simp] theorem State.addEvent_pnlState (s : State) (e : Event) : (s.addEvent e).pnlState = s.pnlState := rfl
@[simp] theorem State.addEvent_pnlCfg (s : State) (e : Event) : (s.addEvent e).pnlCfg = s.pnlCfg := rfl
@[simp] theorem State.addEvent_pnlScratch (s : State) (e : Event) : (s.addEvent e).pnlScratch = s.pnlScratch := rfl
@[simp] theorem State.addEvent_pnlOwner (s : State) (e : Event) : (s.addEvent e).pnlOwner = s.pnlOwner := rfl
@[simp] theorem State.addEvent_cs (s : State) (e : Event) : (s.addEvent e).cs = s.cs := rfl
@[simp] theorem State.addEvent_dcx (s : State) (e : Event) : (s.addEvent e).dcx = s.dcx := rfl
@[simp] theorem State.addEvent_wire (s : State) (e : Event) : (s.addEvent e).wire = s.wire := rfl
@[simp] theorem State.addEvent_threads (s : State) (e : Event) : (s.addEvent e).threads = s.threads := rfl
@[simp] theorem State.addEvent_irq (s : State) (e : Event) : (s.addEvent e).irq = s.irq := rfl
@[simp] theorem State.addEvent_irqResults (s : State) (e : Event) : (s.addEvent e).irqResults = s.irqResults := rfl
@[simp] theorem State.addEvent_wakeEv (s : State) (e : Event) : (s.addEvent e).wakeEv = s.wakeEv := rfl
@[simp] theorem State.addEvent_wakeEr (s : State) (e : Event) : (s.addEvent e).wakeEr = s.wakeEr := rfl
@[simp] theorem State.addEvent_cbBodies (s : State) (e : Event) : (s.addEvent e).cbBodies = s.cbBodies := rfl
@[simp] theorem State.addEvent_mem (s : State) (e : Event) : (s.addEvent e).mem = s.mem := rfl
@[simp] theorem State.addEvent_draws (s : State) (e : Event) : (s.addEvent e).draws = s.draws := rfl
@[simp] theorem State.addEvent_cur (s : State) (e : Event) : (s.addEvent e).cur = s.cur := rfl
@[simp] theorem State.addEvent_sched (s : State) (e : Event) : (s.addEvent e).sched = s.sched := rfl

-- ==== addWire ====

@[simp] theorem State.addWire_par (s : State) (d : Dir) (b : Byte) : (s.addWire d b).par = s.par := rfl
@[simp] theorem State.addWire_drvState (s : State) (d : Dir) (b : Byte) : (s.addWire d b).drvState = s.drvState := rfl
@[simp] theorem State.addWire_activeWindow (s : State) (d : Dir) (b : Byte) : (s.addWire d b).activeWindow = s.activeWindow := rfl
@[simp] theorem State.addWire_waiter (s : State) (d : Dir) (b : Byte) : (s.addWire d b).waiter = s.waiter := rfl
@[simp] theorem State.addWire_cfg (s : State) (d : Dir) (b : Byte) : (s.addWire d b).cfg = s.cfg := rfl
@[simp] theorem State.addWire_lockHolder (s : State) (d : Dir) (b : Byte) : (s.addWire d b).lockHolder = s.lockHolder := rfl
@[simp] theorem State.addWire_ltdcOwner (s : State) (d : Dir) (b : Byte) : (s.addWire d b).ltdcOwner = s.ltdcOwner := rfl
@[simp] theorem State.addWire_fault (s : State) (d : Dir) (b : Byte) : (s.addWire d b).fault = s.fault := rfl
@[simp] theorem State.addWire_nvicEv (s : State) (d : Dir) (b : Byte) : (s.addWire d b).nvicEv = s.nvicEv := rfl
@[simp] theorem State.addWire_nvicEr (s : State) (d : Dir) (b : Byte) : (s.addWire d b).nvicEr = s.nvicEr := rfl
@[simp] theorem State.addWire_shadow (s : State) (d : Dir) (b : Byte) : (s.addWire d b).shadow = s.shadow := rfl
@[simp] theorem State.addWire_active (s : State) (d : Dir) (b : Byte) : (s.addWire d b).active = s.active := rfl
@[simp] theorem State.addWire_srcr (s : State) (d : Dir) (b : Byte) : (s.addWire d b).srcr = s.srcr := rfl
@[simp] theorem State.addWire_ier (s : State) (d : Dir) (b : Byte) : (s.addWire d b).ier = s.ier := rfl
@[simp] theorem State.addWire_isr (s : State) (d : Dir) (b : Byte) : (s.addWire d b).isr = s.isr := rfl
@[simp] theorem State.addWire_lipcr (s : State) (d : Dir) (b : Byte) : (s.addWire d b).lipcr = s.lipcr := rfl
@[simp] theorem State.addWire_clutShadow (s : State) (d : Dir) (b : Byte) : (s.addWire d b).clutShadow = s.clutShadow := rfl
@[simp] theorem State.addWire_clutActive (s : State) (d : Dir) (b : Byte) : (s.addWire d b).clutActive = s.clutActive := rfl
@[simp] theorem State.addWire_pnlState (s : State) (d : Dir) (b : Byte) : (s.addWire d b).pnlState = s.pnlState := rfl
@[simp] theorem State.addWire_pnlCfg (s : State) (d : Dir) (b : Byte) : (s.addWire d b).pnlCfg = s.pnlCfg := rfl
@[simp] theorem State.addWire_pnlScratch (s : State) (d : Dir) (b : Byte) : (s.addWire d b).pnlScratch = s.pnlScratch := rfl
@[simp] theorem State.addWire_pnlOwner (s : State) (d : Dir) (b : Byte) : (s.addWire d b).pnlOwner = s.pnlOwner := rfl
@[simp] theorem State.addWire_cs (s : State) (d : Dir) (b : Byte) : (s.addWire d b).cs = s.cs := rfl
@[simp] theorem State.addWire_dcx (s : State) (d : Dir) (b : Byte) : (s.addWire d b).dcx = s.dcx := rfl
@[simp] theorem State.addWire_events (s : State) (d : Dir) (b : Byte) : (s.addWire d b).events = s.events := rfl
@[simp] theorem State.addWire_threads (s : State) (d : Dir) (b : Byte) : (s.addWire d b).threads = s.threads := rfl
@[simp] theorem State.addWire_irq (s : State) (d : Dir) (b : Byte) : (s.addWire d b).irq = s.irq := rfl
@[simp] theorem State.addWire_irqResults (s : State) (d : Dir) (b : Byte) : (s.addWire d b).irqResults = s.irqResults := rfl
@[simp] theorem State.addWire_wakeEv (s : State) (d : Dir) (b : Byte) : (s.addWire d b).wakeEv = s.wakeEv := rfl
@[simp] theorem State.addWire_wakeEr (s : State) (d : Dir) (b : Byte) : (s.addWire d b).wakeEr = s.wakeEr := rfl
@[simp] theorem State.addWire_cbBodies (s : State) (d : Dir) (b : Byte) : (s.addWire d b).cbBodies = s.cbBodies := rfl
@[simp] theorem State.addWire_mem (s : State) (d : Dir) (b : Byte) : (s.addWire d b).mem = s.mem := rfl
@[simp] theorem State.addWire_draws (s : State) (d : Dir) (b : Byte) : (s.addWire d b).draws = s.draws := rfl
@[simp] theorem State.addWire_cur (s : State) (d : Dir) (b : Byte) : (s.addWire d b).cur = s.cur := rfl
@[simp] theorem State.addWire_sched (s : State) (d : Dir) (b : Byte) : (s.addWire d b).sched = s.sched := rfl

-- ==== enter ====

@[simp] theorem State.enter_par (s : State) (v : Vec) : (s.enter v).par = s.par := rfl
@[simp] theorem State.enter_drvState (s : State) (v : Vec) : (s.enter v).drvState = s.drvState := rfl
@[simp] theorem State.enter_activeWindow (s : State) (v : Vec) : (s.enter v).activeWindow = s.activeWindow := rfl
@[simp] theorem State.enter_waiter (s : State) (v : Vec) : (s.enter v).waiter = s.waiter := rfl
@[simp] theorem State.enter_cfg (s : State) (v : Vec) : (s.enter v).cfg = s.cfg := rfl
@[simp] theorem State.enter_lockHolder (s : State) (v : Vec) : (s.enter v).lockHolder = s.lockHolder := rfl
@[simp] theorem State.enter_ltdcOwner (s : State) (v : Vec) : (s.enter v).ltdcOwner = s.ltdcOwner := rfl
@[simp] theorem State.enter_fault (s : State) (v : Vec) : (s.enter v).fault = s.fault := rfl
@[simp] theorem State.enter_nvicEv (s : State) (v : Vec) : (s.enter v).nvicEv = s.nvicEv := rfl
@[simp] theorem State.enter_nvicEr (s : State) (v : Vec) : (s.enter v).nvicEr = s.nvicEr := rfl
@[simp] theorem State.enter_shadow (s : State) (v : Vec) : (s.enter v).shadow = s.shadow := rfl
@[simp] theorem State.enter_active (s : State) (v : Vec) : (s.enter v).active = s.active := rfl
@[simp] theorem State.enter_srcr (s : State) (v : Vec) : (s.enter v).srcr = s.srcr := rfl
@[simp] theorem State.enter_ier (s : State) (v : Vec) : (s.enter v).ier = s.ier := rfl
@[simp] theorem State.enter_isr (s : State) (v : Vec) : (s.enter v).isr = s.isr := rfl
@[simp] theorem State.enter_lipcr (s : State) (v : Vec) : (s.enter v).lipcr = s.lipcr := rfl
@[simp] theorem State.enter_clutShadow (s : State) (v : Vec) : (s.enter v).clutShadow = s.clutShadow := rfl
@[simp] theorem State.enter_clutActive (s : State) (v : Vec) : (s.enter v).clutActive = s.clutActive := rfl
@[simp] theorem State.enter_pnlState (s : State) (v : Vec) : (s.enter v).pnlState = s.pnlState := rfl
@[simp] theorem State.enter_pnlCfg (s : State) (v : Vec) : (s.enter v).pnlCfg = s.pnlCfg := rfl
@[simp] theorem State.enter_pnlScratch (s : State) (v : Vec) : (s.enter v).pnlScratch = s.pnlScratch := rfl
@[simp] theorem State.enter_pnlOwner (s : State) (v : Vec) : (s.enter v).pnlOwner = s.pnlOwner := rfl
@[simp] theorem State.enter_cs (s : State) (v : Vec) : (s.enter v).cs = s.cs := rfl
@[simp] theorem State.enter_dcx (s : State) (v : Vec) : (s.enter v).dcx = s.dcx := rfl
@[simp] theorem State.enter_wire (s : State) (v : Vec) : (s.enter v).wire = s.wire := rfl
@[simp] theorem State.enter_events (s : State) (v : Vec) : (s.enter v).events = s.events := rfl
@[simp] theorem State.enter_threads (s : State) (v : Vec) : (s.enter v).threads = s.threads := rfl
@[simp] theorem State.enter_irqResults (s : State) (v : Vec) : (s.enter v).irqResults = s.irqResults := rfl
@[simp] theorem State.enter_wakeEv (s : State) (v : Vec) : (s.enter v).wakeEv = s.wakeEv := rfl
@[simp] theorem State.enter_wakeEr (s : State) (v : Vec) : (s.enter v).wakeEr = s.wakeEr := rfl
@[simp] theorem State.enter_cbBodies (s : State) (v : Vec) : (s.enter v).cbBodies = s.cbBodies := rfl
@[simp] theorem State.enter_mem (s : State) (v : Vec) : (s.enter v).mem = s.mem := rfl
@[simp] theorem State.enter_draws (s : State) (v : Vec) : (s.enter v).draws = s.draws := rfl
@[simp] theorem State.enter_cur (s : State) (v : Vec) : (s.enter v).cur = s.cur := rfl
@[simp] theorem State.enter_sched (s : State) (v : Vec) : (s.enter v).sched = s.sched := rfl

-- ==== commit ====

@[simp] theorem State.commit_par (s : State) : (s.commit).par = s.par := rfl
@[simp] theorem State.commit_drvState (s : State) : (s.commit).drvState = s.drvState := rfl
@[simp] theorem State.commit_activeWindow (s : State) : (s.commit).activeWindow = s.activeWindow := rfl
@[simp] theorem State.commit_waiter (s : State) : (s.commit).waiter = s.waiter := rfl
@[simp] theorem State.commit_cfg (s : State) : (s.commit).cfg = s.cfg := rfl
@[simp] theorem State.commit_lockHolder (s : State) : (s.commit).lockHolder = s.lockHolder := rfl
@[simp] theorem State.commit_ltdcOwner (s : State) : (s.commit).ltdcOwner = s.ltdcOwner := rfl
@[simp] theorem State.commit_fault (s : State) : (s.commit).fault = s.fault := rfl
@[simp] theorem State.commit_nvicEv (s : State) : (s.commit).nvicEv = s.nvicEv := rfl
@[simp] theorem State.commit_nvicEr (s : State) : (s.commit).nvicEr = s.nvicEr := rfl
@[simp] theorem State.commit_shadow (s : State) : (s.commit).shadow = s.shadow := rfl
@[simp] theorem State.commit_ier (s : State) : (s.commit).ier = s.ier := rfl
@[simp] theorem State.commit_lipcr (s : State) : (s.commit).lipcr = s.lipcr := rfl
@[simp] theorem State.commit_clutShadow (s : State) : (s.commit).clutShadow = s.clutShadow := rfl
@[simp] theorem State.commit_pnlState (s : State) : (s.commit).pnlState = s.pnlState := rfl
@[simp] theorem State.commit_pnlCfg (s : State) : (s.commit).pnlCfg = s.pnlCfg := rfl
@[simp] theorem State.commit_pnlScratch (s : State) : (s.commit).pnlScratch = s.pnlScratch := rfl
@[simp] theorem State.commit_pnlOwner (s : State) : (s.commit).pnlOwner = s.pnlOwner := rfl
@[simp] theorem State.commit_cs (s : State) : (s.commit).cs = s.cs := rfl
@[simp] theorem State.commit_dcx (s : State) : (s.commit).dcx = s.dcx := rfl
@[simp] theorem State.commit_wire (s : State) : (s.commit).wire = s.wire := rfl
@[simp] theorem State.commit_threads (s : State) : (s.commit).threads = s.threads := rfl
@[simp] theorem State.commit_irq (s : State) : (s.commit).irq = s.irq := rfl
@[simp] theorem State.commit_irqResults (s : State) : (s.commit).irqResults = s.irqResults := rfl
@[simp] theorem State.commit_wakeEv (s : State) : (s.commit).wakeEv = s.wakeEv := rfl
@[simp] theorem State.commit_wakeEr (s : State) : (s.commit).wakeEr = s.wakeEr := rfl
@[simp] theorem State.commit_cbBodies (s : State) : (s.commit).cbBodies = s.cbBodies := rfl
@[simp] theorem State.commit_mem (s : State) : (s.commit).mem = s.mem := rfl
@[simp] theorem State.commit_draws (s : State) : (s.commit).draws = s.draws := rfl
@[simp] theorem State.commit_cur (s : State) : (s.commit).cur = s.cur := rfl
@[simp] theorem State.commit_sched (s : State) : (s.commit).sched = s.sched := rfl

-- ==== writeClut ====

@[simp] theorem State.writeClut_par (s : State) (l : Layer) (v : Word) : (s.writeClut l v).par = s.par := rfl
@[simp] theorem State.writeClut_drvState (s : State) (l : Layer) (v : Word) : (s.writeClut l v).drvState = s.drvState := rfl
@[simp] theorem State.writeClut_activeWindow (s : State) (l : Layer) (v : Word) : (s.writeClut l v).activeWindow = s.activeWindow := rfl
@[simp] theorem State.writeClut_waiter (s : State) (l : Layer) (v : Word) : (s.writeClut l v).waiter = s.waiter := rfl
@[simp] theorem State.writeClut_cfg (s : State) (l : Layer) (v : Word) : (s.writeClut l v).cfg = s.cfg := rfl
@[simp] theorem State.writeClut_lockHolder (s : State) (l : Layer) (v : Word) : (s.writeClut l v).lockHolder = s.lockHolder := rfl
@[simp] theorem State.writeClut_ltdcOwner (s : State) (l : Layer) (v : Word) : (s.writeClut l v).ltdcOwner = s.ltdcOwner := rfl
@[simp] theorem State.writeClut_fault (s : State) (l : Layer) (v : Word) : (s.writeClut l v).fault = s.fault := rfl
@[simp] theorem State.writeClut_nvicEv (s : State) (l : Layer) (v : Word) : (s.writeClut l v).nvicEv = s.nvicEv := rfl
@[simp] theorem State.writeClut_nvicEr (s : State) (l : Layer) (v : Word) : (s.writeClut l v).nvicEr = s.nvicEr := rfl
@[simp] theorem State.writeClut_shadow (s : State) (l : Layer) (v : Word) : (s.writeClut l v).shadow = s.shadow := rfl
@[simp] theorem State.writeClut_active (s : State) (l : Layer) (v : Word) : (s.writeClut l v).active = s.active := rfl
@[simp] theorem State.writeClut_srcr (s : State) (l : Layer) (v : Word) : (s.writeClut l v).srcr = s.srcr := rfl
@[simp] theorem State.writeClut_ier (s : State) (l : Layer) (v : Word) : (s.writeClut l v).ier = s.ier := rfl
@[simp] theorem State.writeClut_isr (s : State) (l : Layer) (v : Word) : (s.writeClut l v).isr = s.isr := rfl
@[simp] theorem State.writeClut_lipcr (s : State) (l : Layer) (v : Word) : (s.writeClut l v).lipcr = s.lipcr := rfl
@[simp] theorem State.writeClut_clutActive (s : State) (l : Layer) (v : Word) : (s.writeClut l v).clutActive = s.clutActive := rfl
@[simp] theorem State.writeClut_pnlState (s : State) (l : Layer) (v : Word) : (s.writeClut l v).pnlState = s.pnlState := rfl
@[simp] theorem State.writeClut_pnlCfg (s : State) (l : Layer) (v : Word) : (s.writeClut l v).pnlCfg = s.pnlCfg := rfl
@[simp] theorem State.writeClut_pnlScratch (s : State) (l : Layer) (v : Word) : (s.writeClut l v).pnlScratch = s.pnlScratch := rfl
@[simp] theorem State.writeClut_pnlOwner (s : State) (l : Layer) (v : Word) : (s.writeClut l v).pnlOwner = s.pnlOwner := rfl
@[simp] theorem State.writeClut_cs (s : State) (l : Layer) (v : Word) : (s.writeClut l v).cs = s.cs := rfl
@[simp] theorem State.writeClut_dcx (s : State) (l : Layer) (v : Word) : (s.writeClut l v).dcx = s.dcx := rfl
@[simp] theorem State.writeClut_wire (s : State) (l : Layer) (v : Word) : (s.writeClut l v).wire = s.wire := rfl
@[simp] theorem State.writeClut_events (s : State) (l : Layer) (v : Word) : (s.writeClut l v).events = s.events := rfl
@[simp] theorem State.writeClut_threads (s : State) (l : Layer) (v : Word) : (s.writeClut l v).threads = s.threads := rfl
@[simp] theorem State.writeClut_irq (s : State) (l : Layer) (v : Word) : (s.writeClut l v).irq = s.irq := rfl
@[simp] theorem State.writeClut_irqResults (s : State) (l : Layer) (v : Word) : (s.writeClut l v).irqResults = s.irqResults := rfl
@[simp] theorem State.writeClut_wakeEv (s : State) (l : Layer) (v : Word) : (s.writeClut l v).wakeEv = s.wakeEv := rfl
@[simp] theorem State.writeClut_wakeEr (s : State) (l : Layer) (v : Word) : (s.writeClut l v).wakeEr = s.wakeEr := rfl
@[simp] theorem State.writeClut_cbBodies (s : State) (l : Layer) (v : Word) : (s.writeClut l v).cbBodies = s.cbBodies := rfl
@[simp] theorem State.writeClut_mem (s : State) (l : Layer) (v : Word) : (s.writeClut l v).mem = s.mem := rfl
@[simp] theorem State.writeClut_draws (s : State) (l : Layer) (v : Word) : (s.writeClut l v).draws = s.draws := rfl
@[simp] theorem State.writeClut_cur (s : State) (l : Layer) (v : Word) : (s.writeClut l v).cur = s.cur := rfl
@[simp] theorem State.writeClut_sched (s : State) (l : Layer) (v : Word) : (s.writeClut l v).sched = s.sched := rfl

-- ==== park ====

@[simp] theorem State.park_par (s : State) : (s.park).par = s.par := rfl
@[simp] theorem State.park_drvState (s : State) : (s.park).drvState = s.drvState := rfl
@[simp] theorem State.park_activeWindow (s : State) : (s.park).activeWindow = s.activeWindow := rfl
@[simp] theorem State.park_cfg (s : State) : (s.park).cfg = s.cfg := rfl
@[simp] theorem State.park_lockHolder (s : State) : (s.park).lockHolder = s.lockHolder := rfl
@[simp] theorem State.park_ltdcOwner (s : State) : (s.park).ltdcOwner = s.ltdcOwner := rfl
@[simp] theorem State.park_fault (s : State) : (s.park).fault = s.fault := rfl
@[simp] theorem State.park_nvicEv (s : State) : (s.park).nvicEv = s.nvicEv := rfl
@[simp] theorem State.park_nvicEr (s : State) : (s.park).nvicEr = s.nvicEr := rfl
@[simp] theorem State.park_shadow (s : State) : (s.park).shadow = s.shadow := rfl
@[simp] theorem State.park_active (s : State) : (s.park).active = s.active := rfl
@[simp] theorem State.park_srcr (s : State) : (s.park).srcr = s.srcr := rfl
@[simp] theorem State.park_ier (s : State) : (s.park).ier = s.ier := rfl
@[simp] theorem State.park_isr (s : State) : (s.park).isr = s.isr := rfl
@[simp] theorem State.park_lipcr (s : State) : (s.park).lipcr = s.lipcr := rfl
@[simp] theorem State.park_clutShadow (s : State) : (s.park).clutShadow = s.clutShadow := rfl
@[simp] theorem State.park_clutActive (s : State) : (s.park).clutActive = s.clutActive := rfl
@[simp] theorem State.park_pnlState (s : State) : (s.park).pnlState = s.pnlState := rfl
@[simp] theorem State.park_pnlCfg (s : State) : (s.park).pnlCfg = s.pnlCfg := rfl
@[simp] theorem State.park_pnlScratch (s : State) : (s.park).pnlScratch = s.pnlScratch := rfl
@[simp] theorem State.park_pnlOwner (s : State) : (s.park).pnlOwner = s.pnlOwner := rfl
@[simp] theorem State.park_cs (s : State) : (s.park).cs = s.cs := rfl
@[simp] theorem State.park_dcx (s : State) : (s.park).dcx = s.dcx := rfl
@[simp] theorem State.park_wire (s : State) : (s.park).wire = s.wire := rfl
@[simp] theorem State.park_events (s : State) : (s.park).events = s.events := rfl
@[simp] theorem State.park_threads (s : State) : (s.park).threads = s.threads := rfl
@[simp] theorem State.park_irq (s : State) : (s.park).irq = s.irq := rfl
@[simp] theorem State.park_irqResults (s : State) : (s.park).irqResults = s.irqResults := rfl
@[simp] theorem State.park_wakeEv (s : State) : (s.park).wakeEv = s.wakeEv := rfl
@[simp] theorem State.park_wakeEr (s : State) : (s.park).wakeEr = s.wakeEr := rfl
@[simp] theorem State.park_cbBodies (s : State) : (s.park).cbBodies = s.cbBodies := rfl
@[simp] theorem State.park_mem (s : State) : (s.park).mem = s.mem := rfl
@[simp] theorem State.park_draws (s : State) : (s.park).draws = s.draws := rfl
@[simp] theorem State.park_cur (s : State) : (s.park).cur = s.cur := rfl
@[simp] theorem State.park_sched (s : State) : (s.park).sched = s.sched := rfl

-- ==== takeMsg ====

@[simp] theorem State.takeMsg_par (s : State) : (s.takeMsg).par = s.par := by
  simp [State.takeMsg]
@[simp] theorem State.takeMsg_drvState (s : State) : (s.takeMsg).drvState = s.drvState := by
  simp [State.takeMsg]
@[simp] theorem State.takeMsg_activeWindow (s : State) : (s.takeMsg).activeWindow = s.activeWindow := by
  simp [State.takeMsg]
@[simp] theorem State.takeMsg_waiter (s : State) : (s.takeMsg).waiter = s.waiter := by
  simp [State.takeMsg]
@[simp] theorem State.takeMsg_cfg (s : State) : (s.takeMsg).cfg = s.cfg := by
  simp [State.takeMsg]
@[simp] theorem State.takeMsg_lockHolder (s : State) : (s.takeMsg).lockHolder = s.lockHolder := by
  simp [State.takeMsg]
@[simp] theorem State.takeMsg_ltdcOwner (s : State) : (s.takeMsg).ltdcOwner = s.ltdcOwner := by
  simp [State.takeMsg]
@[simp] theorem State.takeMsg_fault (s : State) : (s.takeMsg).fault = s.fault := by
  simp [State.takeMsg]
@[simp] theorem State.takeMsg_nvicEv (s : State) : (s.takeMsg).nvicEv = s.nvicEv := by
  simp [State.takeMsg]
@[simp] theorem State.takeMsg_nvicEr (s : State) : (s.takeMsg).nvicEr = s.nvicEr := by
  simp [State.takeMsg]
@[simp] theorem State.takeMsg_shadow (s : State) : (s.takeMsg).shadow = s.shadow := by
  simp [State.takeMsg]
@[simp] theorem State.takeMsg_active (s : State) : (s.takeMsg).active = s.active := by
  simp [State.takeMsg]
@[simp] theorem State.takeMsg_srcr (s : State) : (s.takeMsg).srcr = s.srcr := by
  simp [State.takeMsg]
@[simp] theorem State.takeMsg_ier (s : State) : (s.takeMsg).ier = s.ier := by
  simp [State.takeMsg]
@[simp] theorem State.takeMsg_isr (s : State) : (s.takeMsg).isr = s.isr := by
  simp [State.takeMsg]
@[simp] theorem State.takeMsg_lipcr (s : State) : (s.takeMsg).lipcr = s.lipcr := by
  simp [State.takeMsg]
@[simp] theorem State.takeMsg_clutShadow (s : State) : (s.takeMsg).clutShadow = s.clutShadow := by
  simp [State.takeMsg]
@[simp] theorem State.takeMsg_clutActive (s : State) : (s.takeMsg).clutActive = s.clutActive := by
  simp [State.takeMsg]
@[simp] theorem State.takeMsg_pnlState (s : State) : (s.takeMsg).pnlState = s.pnlState := by
  simp [State.takeMsg]
@[simp] theorem State.takeMsg_pnlCfg (s : State) : (s.takeMsg).pnlCfg = s.pnlCfg := by
  simp [State.takeMsg]
@[simp] theorem State.takeMsg_pnlScratch (s : State) : (s.takeMsg).pnlScratch = s.pnlScratch := by
  simp [State.takeMsg]
@[simp] theorem State.takeMsg_pnlOwner (s : State) : (s.takeMsg).pnlOwner = s.pnlOwner := by
  simp [State.takeMsg]
@[simp] theorem State.takeMsg_cs (s : State) : (s.takeMsg).cs = s.cs := by
  simp [State.takeMsg]
@[simp] theorem State.takeMsg_dcx (s : State) : (s.takeMsg).dcx = s.dcx := by
  simp [State.takeMsg]
@[simp] theorem State.takeMsg_wire (s : State) : (s.takeMsg).wire = s.wire := by
  simp [State.takeMsg]
@[simp] theorem State.takeMsg_events (s : State) : (s.takeMsg).events = s.events := by
  simp [State.takeMsg]
@[simp] theorem State.takeMsg_irq (s : State) : (s.takeMsg).irq = s.irq := by
  simp [State.takeMsg]
@[simp] theorem State.takeMsg_irqResults (s : State) : (s.takeMsg).irqResults = s.irqResults := by
  simp [State.takeMsg]
@[simp] theorem State.takeMsg_cbBodies (s : State) : (s.takeMsg).cbBodies = s.cbBodies := by
  simp [State.takeMsg]
@[simp] theorem State.takeMsg_mem (s : State) : (s.takeMsg).mem = s.mem := by
  simp [State.takeMsg]
@[simp] theorem State.takeMsg_draws (s : State) : (s.takeMsg).draws = s.draws := by
  simp [State.takeMsg]
@[simp] theorem State.takeMsg_cur (s : State) : (s.takeMsg).cur = s.cur := by
  simp [State.takeMsg]
@[simp] theorem State.takeMsg_sched (s : State) : (s.takeMsg).sched = s.sched := by
  simp [State.takeMsg]

-- ==== receive ====

@[simp] theorem State.receive_par (s : State) : (s.receive).par = s.par := rfl
@[simp] theorem State.receive_drvState (s : State) : (s.receive).drvState = s.drvState := rfl
@[simp] theorem State.receive_activeWindow (s : State) : (s.receive).activeWindow = s.activeWindow := rfl
@[simp] theorem State.receive_waiter (s : State) : (s.receive).waiter = s.waiter := rfl
@[simp] theorem State.receive_cfg (s : State) : (s.receive).cfg = s.cfg := rfl
@[simp] theorem State.receive_lockHolder (s : State) : (s.receive).lockHolder = s.lockHolder := rfl
@[simp] theorem State.receive_ltdcOwner (s : State) : (s.receive).ltdcOwner = s.ltdcOwner := rfl
@[simp] theorem State.receive_fault (s : State) : (s.receive).fault = s.fault := rfl
@[simp] theorem State.receive_nvicEv (s : State) : (s.receive).nvicEv = s.nvicEv := rfl
@[simp] theorem State.receive_nvicEr (s : State) : (s.receive).nvicEr = s.nvicEr := rfl
@[simp] theorem State.receive_shadow (s : State) : (s.receive).shadow = s.shadow := rfl
@[simp] theorem State.receive_active (s : State) : (s.receive).active = s.active := rfl
@[simp] theorem State.receive_srcr (s : State) : (s.receive).srcr = s.srcr := rfl
@[simp] theorem State.receive_ier (s : State) : (s.receive).ier = s.ier := rfl
@[simp] theorem State.receive_isr (s : State) : (s.receive).isr = s.isr := rfl
@[simp] theorem State.receive_lipcr (s : State) : (s.receive).lipcr = s.lipcr := rfl
@[simp] theorem State.receive_clutShadow (s : State) : (s.receive).clutShadow = s.clutShadow := rfl
@[simp] theorem State.receive_clutActive (s : State) : (s.receive).clutActive = s.clutActive := rfl
@[simp] theorem State.receive_pnlState (s : State) : (s.receive).pnlState = s.pnlState := rfl
@[simp] theorem State.receive_pnlCfg (s : State) : (s.receive).pnlCfg = s.pnlCfg := rfl
@[simp] theorem State.receive_pnlScratch (s : State) : (s.receive).pnlScratch = s.pnlScratch := rfl
@[simp] theorem State.receive_pnlOwner (s : State) : (s.receive).pnlOwner = s.pnlOwner := rfl
@[simp] theorem State.receive_cs (s : State) : (s.receive).cs = s.cs := rfl
@[simp] theorem State.receive_dcx (s : State) : (s.receive).dcx = s.dcx := rfl
@[simp] theorem State.receive_events (s : State) : (s.receive).events = s.events := rfl
@[simp] theorem State.receive_threads (s : State) : (s.receive).threads = s.threads := rfl
@[simp] theorem State.receive_irq (s : State) : (s.receive).irq = s.irq := rfl
@[simp] theorem State.receive_irqResults (s : State) : (s.receive).irqResults = s.irqResults := rfl
@[simp] theorem State.receive_wakeEv (s : State) : (s.receive).wakeEv = s.wakeEv := rfl
@[simp] theorem State.receive_wakeEr (s : State) : (s.receive).wakeEr = s.wakeEr := rfl
@[simp] theorem State.receive_cbBodies (s : State) : (s.receive).cbBodies = s.cbBodies := rfl
@[simp] theorem State.receive_mem (s : State) : (s.receive).mem = s.mem := rfl
@[simp] theorem State.receive_cur (s : State) : (s.receive).cur = s.cur := rfl
@[simp] theorem State.receive_sched (s : State) : (s.receive).sched = s.sched := rfl

-- ==== switchTo ====

@[simp] theorem State.switchTo_par (s : State) (t : Nat) : (s.switchTo t).par = s.par := rfl
@[simp] theorem State.switchTo_drvState (s : State) (t : Nat) : (s.switchTo t).drvState = s.drvState := rfl
@[simp] theorem State.switchTo_activeWindow (s : State) (t : Nat) : (s.switchTo t).activeWindow = s.activeWindow := rfl
@[simp] theorem State.switchTo_waiter (s : State) (t : Nat) : (s.switchTo t).waiter = s.waiter := rfl
@[simp] theorem State.switchTo_cfg (s : State) (t : Nat) : (s.switchTo t).cfg = s.cfg := rfl
@[simp] theorem State.switchTo_lockHolder (s : State) (t : Nat) : (s.switchTo t).lockHolder = s.lockHolder := rfl
@[simp] theorem State.switchTo_ltdcOwner (s : State) (t : Nat) : (s.switchTo t).ltdcOwner = s.ltdcOwner := rfl
@[simp] theorem State.switchTo_fault (s : State) (t : Nat) : (s.switchTo t).fault = s.fault := rfl
@[simp] theorem State.switchTo_nvicEv (s : State) (t : Nat) : (s.switchTo t).nvicEv = s.nvicEv := rfl
@[simp] theorem State.switchTo_nvicEr (s : State) (t : Nat) : (s.switchTo t).nvicEr = s.nvicEr := rfl
@[simp] theorem State.switchTo_shadow (s : State) (t : Nat) : (s.switchTo t).shadow = s.shadow := rfl
@[simp] theorem State.switchTo_active (s : State) (t : Nat) : (s.switchTo t).active = s.active := rfl
@[simp] theorem State.switchTo_srcr (s : State) (t : Nat) : (s.switchTo t).srcr = s.srcr := rfl
@[simp] theorem State.switchTo_ier (s : State) (t : Nat) : (s.switchTo t).ier = s.ier := rfl
@[simp] theorem State.switchTo_isr (s : State) (t : Nat) : (s.switchTo t).isr = s.isr := rfl
@[simp] theorem State.switchTo_lipcr (s : State) (t : Nat) : (s.switchTo t).lipcr = s.lipcr := rfl
@[simp] theorem State.switchTo_clutShadow (s : State) (t : Nat) : (s.switchTo t).clutShadow = s.clutShadow := rfl
@[simp] theorem State.switchTo_clutActive (s : State) (t : Nat) : (s.switchTo t).clutActive = s.clutActive := rfl
@[simp] theorem State.switchTo_pnlState (s : State) (t : Nat) : (s.switchTo t).pnlState = s.pnlState := rfl
@[simp] theorem State.switchTo_pnlCfg (s : State) (t : Nat) : (s.switchTo t).pnlCfg = s.pnlCfg := rfl
@[simp] theorem State.switchTo_pnlScratch (s : State) (t : Nat) : (s.switchTo t).pnlScratch = s.pnlScratch := rfl
@[simp] theorem State.switchTo_pnlOwner (s : State) (t : Nat) : (s.switchTo t).pnlOwner = s.pnlOwner := rfl
@[simp] theorem State.switchTo_cs (s : State) (t : Nat) : (s.switchTo t).cs = s.cs := rfl
@[simp] theorem State.switchTo_dcx (s : State) (t : Nat) : (s.switchTo t).dcx = s.dcx := rfl
@[simp] theorem State.switchTo_wire (s : State) (t : Nat) : (s.switchTo t).wire = s.wire := rfl
@[simp] theorem State.switchTo_events (s : State) (t : Nat) : (s.switchTo t).events = s.events := rfl
@[simp] theorem State.switchTo_threads (s : State) (t : Nat) : (s.switchTo t).threads = s.threads := rfl
@[simp] theorem State.switchTo_irq (s : State) (t : Nat) : (s.switchTo t).irq = s.irq := rfl
@[simp] theorem State.switchTo_irqResults (s : State) (t : Nat) : (s.switchTo t).irqResults = s.irqResults := rfl
@[simp] theorem State.switchTo_wakeEv (s : State) (t : Nat) : (s.switchTo t).wakeEv = s.wakeEv := rfl
@[simp] theorem State.switchTo_wakeEr (s : State) (t : Nat) : (s.switchTo t).wakeEr = s.wakeEr := rfl
@[simp] theorem State.switchTo_cbBodies (s : State) (t : Nat) : (s.switchTo t).cbBodies = s.cbBodies := rfl
@[simp] theorem State.switchTo_mem (s : State) (t : Nat) : (s.switchTo t).mem = s.mem := rfl
@[simp] theorem State.switchTo_draws (s : State) (t : Nat) : (s.switchTo t).draws = s.draws := rfl
@[simp] theorem State.switchTo_sched (s : State) (t : Nat) : (s.switchTo t).sched = s.sched := rfl

-- ==== load ====

@[simp] theorem State.load_par (s : State) (i : Issue) (rest : List Item) : (s.load i rest).par = s.par := rfl
@[simp] theorem State.load_drvState (s : State) (i : Issue) (rest : List Item) : (s.load i rest).drvState = s.drvState := rfl
@[simp] theorem State.load_activeWindow (s : State) (i : Issue) (rest : List Item) : (s.load i rest).activeWindow = s.activeWindow := rfl
@[simp] theorem State.load_waiter (s : State) (i : Issue) (rest : List Item) : (s.load i rest).waiter = s.waiter := rfl
@[simp] theorem State.load_cfg (s : State) (i : Issue) (rest : List Item) : (s.load i rest).cfg = s.cfg := rfl
@[simp] theorem State.load_lockHolder (s : State) (i : Issue) (rest : List Item) : (s.load i rest).lockHolder = s.lockHolder := rfl
@[simp] theorem State.load_ltdcOwner (s : State) (i : Issue) (rest : List Item) : (s.load i rest).ltdcOwner = s.ltdcOwner := rfl
@[simp] theorem State.load_fault (s : State) (i : Issue) (rest : List Item) : (s.load i rest).fault = s.fault := rfl
@[simp] theorem State.load_nvicEv (s : State) (i : Issue) (rest : List Item) : (s.load i rest).nvicEv = s.nvicEv := rfl
@[simp] theorem State.load_nvicEr (s : State) (i : Issue) (rest : List Item) : (s.load i rest).nvicEr = s.nvicEr := rfl
@[simp] theorem State.load_shadow (s : State) (i : Issue) (rest : List Item) : (s.load i rest).shadow = s.shadow := rfl
@[simp] theorem State.load_active (s : State) (i : Issue) (rest : List Item) : (s.load i rest).active = s.active := rfl
@[simp] theorem State.load_srcr (s : State) (i : Issue) (rest : List Item) : (s.load i rest).srcr = s.srcr := rfl
@[simp] theorem State.load_ier (s : State) (i : Issue) (rest : List Item) : (s.load i rest).ier = s.ier := rfl
@[simp] theorem State.load_isr (s : State) (i : Issue) (rest : List Item) : (s.load i rest).isr = s.isr := rfl
@[simp] theorem State.load_lipcr (s : State) (i : Issue) (rest : List Item) : (s.load i rest).lipcr = s.lipcr := rfl
@[simp] theorem State.load_clutShadow (s : State) (i : Issue) (rest : List Item) : (s.load i rest).clutShadow = s.clutShadow := rfl
@[simp] theorem State.load_clutActive (s : State) (i : Issue) (rest : List Item) : (s.load i rest).clutActive = s.clutActive := rfl
@[simp] theorem State.load_pnlState (s : State) (i : Issue) (rest : List Item) : (s.load i rest).pnlState = s.pnlState := rfl
@[simp] theorem State.load_pnlCfg (s : State) (i : Issue) (rest : List Item) : (s.load i rest).pnlCfg = s.pnlCfg := rfl
@[simp] theorem State.load_pnlScratch (s : State) (i : Issue) (rest : List Item) : (s.load i rest).pnlScratch = s.pnlScratch := rfl
@[simp] theorem State.load_pnlOwner (s : State) (i : Issue) (rest : List Item) : (s.load i rest).pnlOwner = s.pnlOwner := rfl
@[simp] theorem State.load_cs (s : State) (i : Issue) (rest : List Item) : (s.load i rest).cs = s.cs := rfl
@[simp] theorem State.load_dcx (s : State) (i : Issue) (rest : List Item) : (s.load i rest).dcx = s.dcx := rfl
@[simp] theorem State.load_wire (s : State) (i : Issue) (rest : List Item) : (s.load i rest).wire = s.wire := rfl
@[simp] theorem State.load_events (s : State) (i : Issue) (rest : List Item) : (s.load i rest).events = s.events := rfl
@[simp] theorem State.load_irq (s : State) (i : Issue) (rest : List Item) : (s.load i rest).irq = s.irq := rfl
@[simp] theorem State.load_irqResults (s : State) (i : Issue) (rest : List Item) : (s.load i rest).irqResults = s.irqResults := rfl
@[simp] theorem State.load_wakeEv (s : State) (i : Issue) (rest : List Item) : (s.load i rest).wakeEv = s.wakeEv := rfl
@[simp] theorem State.load_wakeEr (s : State) (i : Issue) (rest : List Item) : (s.load i rest).wakeEr = s.wakeEr := rfl
@[simp] theorem State.load_cbBodies (s : State) (i : Issue) (rest : List Item) : (s.load i rest).cbBodies = s.cbBodies := rfl
@[simp] theorem State.load_mem (s : State) (i : Issue) (rest : List Item) : (s.load i rest).mem = s.mem := rfl
@[simp] theorem State.load_draws (s : State) (i : Issue) (rest : List Item) : (s.load i rest).draws = s.draws := rfl
@[simp] theorem State.load_cur (s : State) (i : Issue) (rest : List Item) : (s.load i rest).cur = s.cur := rfl
@[simp] theorem State.load_sched (s : State) (i : Issue) (rest : List Item) : (s.load i rest).sched = s.sched := rfl

-- ==== dropItem ====

@[simp] theorem State.dropItem_par (s : State) (rest : List Item) : (s.dropItem rest).par = s.par := rfl
@[simp] theorem State.dropItem_drvState (s : State) (rest : List Item) : (s.dropItem rest).drvState = s.drvState := rfl
@[simp] theorem State.dropItem_activeWindow (s : State) (rest : List Item) : (s.dropItem rest).activeWindow = s.activeWindow := rfl
@[simp] theorem State.dropItem_waiter (s : State) (rest : List Item) : (s.dropItem rest).waiter = s.waiter := rfl
@[simp] theorem State.dropItem_cfg (s : State) (rest : List Item) : (s.dropItem rest).cfg = s.cfg := rfl
@[simp] theorem State.dropItem_lockHolder (s : State) (rest : List Item) : (s.dropItem rest).lockHolder = s.lockHolder := rfl
@[simp] theorem State.dropItem_ltdcOwner (s : State) (rest : List Item) : (s.dropItem rest).ltdcOwner = s.ltdcOwner := rfl
@[simp] theorem State.dropItem_fault (s : State) (rest : List Item) : (s.dropItem rest).fault = s.fault := rfl
@[simp] theorem State.dropItem_nvicEv (s : State) (rest : List Item) : (s.dropItem rest).nvicEv = s.nvicEv := rfl
@[simp] theorem State.dropItem_nvicEr (s : State) (rest : List Item) : (s.dropItem rest).nvicEr = s.nvicEr := rfl
@[simp] theorem State.dropItem_shadow (s : State) (rest : List Item) : (s.dropItem rest).shadow = s.shadow := rfl
@[simp] theorem State.dropItem_active (s : State) (rest : List Item) : (s.dropItem rest).active = s.active := rfl
@[simp] theorem State.dropItem_srcr (s : State) (rest : List Item) : (s.dropItem rest).srcr = s.srcr := rfl
@[simp] theorem State.dropItem_ier (s : State) (rest : List Item) : (s.dropItem rest).ier = s.ier := rfl
@[simp] theorem State.dropItem_isr (s : State) (rest : List Item) : (s.dropItem rest).isr = s.isr := rfl
@[simp] theorem State.dropItem_lipcr (s : State) (rest : List Item) : (s.dropItem rest).lipcr = s.lipcr := rfl
@[simp] theorem State.dropItem_clutShadow (s : State) (rest : List Item) : (s.dropItem rest).clutShadow = s.clutShadow := rfl
@[simp] theorem State.dropItem_clutActive (s : State) (rest : List Item) : (s.dropItem rest).clutActive = s.clutActive := rfl
@[simp] theorem State.dropItem_pnlState (s : State) (rest : List Item) : (s.dropItem rest).pnlState = s.pnlState := rfl
@[simp] theorem State.dropItem_pnlCfg (s : State) (rest : List Item) : (s.dropItem rest).pnlCfg = s.pnlCfg := rfl
@[simp] theorem State.dropItem_pnlScratch (s : State) (rest : List Item) : (s.dropItem rest).pnlScratch = s.pnlScratch := rfl
@[simp] theorem State.dropItem_pnlOwner (s : State) (rest : List Item) : (s.dropItem rest).pnlOwner = s.pnlOwner := rfl
@[simp] theorem State.dropItem_cs (s : State) (rest : List Item) : (s.dropItem rest).cs = s.cs := rfl
@[simp] theorem State.dropItem_dcx (s : State) (rest : List Item) : (s.dropItem rest).dcx = s.dcx := rfl
@[simp] theorem State.dropItem_wire (s : State) (rest : List Item) : (s.dropItem rest).wire = s.wire := rfl
@[simp] theorem State.dropItem_events (s : State) (rest : List Item) : (s.dropItem rest).events = s.events := rfl
@[simp] theorem State.dropItem_irq (s : State) (rest : List Item) : (s.dropItem rest).irq = s.irq := rfl
@[simp] theorem State.dropItem_irqResults (s : State) (rest : List Item) : (s.dropItem rest).irqResults = s.irqResults := rfl
@[simp] theorem State.dropItem_wakeEv (s : State) (rest : List Item) : (s.dropItem rest).wakeEv = s.wakeEv := rfl
@[simp] theorem State.dropItem_wakeEr (s : State) (rest : List Item) : (s.dropItem rest).wakeEr = s.wakeEr := rfl
@[simp] theorem State.dropItem_cbBodies (s : State) (rest : List Item) : (s.dropItem rest).cbBodies = s.cbBodies := rfl
@[simp] theorem State.dropItem_mem (s : State) (rest : List Item) : (s.dropItem rest).mem = s.mem := rfl
@[simp] theorem State.dropItem_draws (s : State) (rest : List Item) : (s.dropItem rest).draws = s.draws := rfl
@[simp] theorem State.dropItem_cur (s : State) (rest : List Item) : (s.dropItem rest).cur = s.cur := rfl
@[simp] theorem State.dropItem_sched (s : State) (rest : List Item) : (s.dropItem rest).sched = s.sched := rfl

-- ==== peripheralReset ====

@[simp] theorem State.peripheralReset_par (s : State) : (s.peripheralReset).par = s.par := rfl
@[simp] theorem State.peripheralReset_drvState (s : State) : (s.peripheralReset).drvState = s.drvState := rfl
@[simp] theorem State.peripheralReset_activeWindow (s : State) : (s.peripheralReset).activeWindow = s.activeWindow := rfl
@[simp] theorem State.peripheralReset_waiter (s : State) : (s.peripheralReset).waiter = s.waiter := rfl
@[simp] theorem State.peripheralReset_cfg (s : State) : (s.peripheralReset).cfg = s.cfg := rfl
@[simp] theorem State.peripheralReset_lockHolder (s : State) : (s.peripheralReset).lockHolder = s.lockHolder := rfl
@[simp] theorem State.peripheralReset_ltdcOwner (s : State) : (s.peripheralReset).ltdcOwner = s.ltdcOwner := rfl
@[simp] theorem State.peripheralReset_fault (s : State) : (s.peripheralReset).fault = s.fault := rfl
@[simp] theorem State.peripheralReset_nvicEv (s : State) : (s.peripheralReset).nvicEv = s.nvicEv := rfl
@[simp] theorem State.peripheralReset_nvicEr (s : State) : (s.peripheralReset).nvicEr = s.nvicEr := rfl
@[simp] theorem State.peripheralReset_clutShadow (s : State) : (s.peripheralReset).clutShadow = s.clutShadow := rfl
@[simp] theorem State.peripheralReset_clutActive (s : State) : (s.peripheralReset).clutActive = s.clutActive := rfl
@[simp] theorem State.peripheralReset_pnlState (s : State) : (s.peripheralReset).pnlState = s.pnlState := rfl
@[simp] theorem State.peripheralReset_pnlCfg (s : State) : (s.peripheralReset).pnlCfg = s.pnlCfg := rfl
@[simp] theorem State.peripheralReset_pnlScratch (s : State) : (s.peripheralReset).pnlScratch = s.pnlScratch := rfl
@[simp] theorem State.peripheralReset_pnlOwner (s : State) : (s.peripheralReset).pnlOwner = s.pnlOwner := rfl
@[simp] theorem State.peripheralReset_cs (s : State) : (s.peripheralReset).cs = s.cs := rfl
@[simp] theorem State.peripheralReset_dcx (s : State) : (s.peripheralReset).dcx = s.dcx := rfl
@[simp] theorem State.peripheralReset_wire (s : State) : (s.peripheralReset).wire = s.wire := rfl
@[simp] theorem State.peripheralReset_events (s : State) : (s.peripheralReset).events = s.events := rfl
@[simp] theorem State.peripheralReset_threads (s : State) : (s.peripheralReset).threads = s.threads := rfl
@[simp] theorem State.peripheralReset_irq (s : State) : (s.peripheralReset).irq = s.irq := rfl
@[simp] theorem State.peripheralReset_irqResults (s : State) : (s.peripheralReset).irqResults = s.irqResults := rfl
@[simp] theorem State.peripheralReset_wakeEv (s : State) : (s.peripheralReset).wakeEv = s.wakeEv := rfl
@[simp] theorem State.peripheralReset_wakeEr (s : State) : (s.peripheralReset).wakeEr = s.wakeEr := rfl
@[simp] theorem State.peripheralReset_cbBodies (s : State) : (s.peripheralReset).cbBodies = s.cbBodies := rfl
@[simp] theorem State.peripheralReset_mem (s : State) : (s.peripheralReset).mem = s.mem := rfl
@[simp] theorem State.peripheralReset_draws (s : State) : (s.peripheralReset).draws = s.draws := rfl
@[simp] theorem State.peripheralReset_cur (s : State) : (s.peripheralReset).cur = s.cur := rfl
@[simp] theorem State.peripheralReset_sched (s : State) : (s.peripheralReset).sched = s.sched := rfl

-- ==== raiseFlag ====

@[simp] theorem State.raiseFlag_par (s : State) (f : Word) : (s.raiseFlag f).par = s.par := by
  unfold State.raiseFlag; split <;> rfl
@[simp] theorem State.raiseFlag_drvState (s : State) (f : Word) : (s.raiseFlag f).drvState = s.drvState := by
  unfold State.raiseFlag; split <;> rfl
@[simp] theorem State.raiseFlag_activeWindow (s : State) (f : Word) : (s.raiseFlag f).activeWindow = s.activeWindow := by
  unfold State.raiseFlag; split <;> rfl
@[simp] theorem State.raiseFlag_waiter (s : State) (f : Word) : (s.raiseFlag f).waiter = s.waiter := by
  unfold State.raiseFlag; split <;> rfl
@[simp] theorem State.raiseFlag_cfg (s : State) (f : Word) : (s.raiseFlag f).cfg = s.cfg := by
  unfold State.raiseFlag; split <;> rfl
@[simp] theorem State.raiseFlag_lockHolder (s : State) (f : Word) : (s.raiseFlag f).lockHolder = s.lockHolder := by
  unfold State.raiseFlag; split <;> rfl
@[simp] theorem State.raiseFlag_ltdcOwner (s : State) (f : Word) : (s.raiseFlag f).ltdcOwner = s.ltdcOwner := by
  unfold State.raiseFlag; split <;> rfl
@[simp] theorem State.raiseFlag_fault (s : State) (f : Word) : (s.raiseFlag f).fault = s.fault := by
  unfold State.raiseFlag; split <;> rfl
@[simp] theorem State.raiseFlag_nvicEv (s : State) (f : Word) : (s.raiseFlag f).nvicEv = s.nvicEv := by
  unfold State.raiseFlag; split <;> rfl
@[simp] theorem State.raiseFlag_nvicEr (s : State) (f : Word) : (s.raiseFlag f).nvicEr = s.nvicEr := by
  unfold State.raiseFlag; split <;> rfl
@[simp] theorem State.raiseFlag_shadow (s : State) (f : Word) : (s.raiseFlag f).shadow = s.shadow := by
  unfold State.raiseFlag; split <;> rfl
@[simp] theorem State.raiseFlag_active (s : State) (f : Word) : (s.raiseFlag f).active = s.active := by
  unfold State.raiseFlag; split <;> rfl
@[simp] theorem State.raiseFlag_srcr (s : State) (f : Word) : (s.raiseFlag f).srcr = s.srcr := by
  unfold State.raiseFlag; split <;> rfl
@[simp] theorem State.raiseFlag_ier (s : State) (f : Word) : (s.raiseFlag f).ier = s.ier := by
  unfold State.raiseFlag; split <;> rfl
@[simp] theorem State.raiseFlag_lipcr (s : State) (f : Word) : (s.raiseFlag f).lipcr = s.lipcr := by
  unfold State.raiseFlag; split <;> rfl
@[simp] theorem State.raiseFlag_clutShadow (s : State) (f : Word) : (s.raiseFlag f).clutShadow = s.clutShadow := by
  unfold State.raiseFlag; split <;> rfl
@[simp] theorem State.raiseFlag_clutActive (s : State) (f : Word) : (s.raiseFlag f).clutActive = s.clutActive := by
  unfold State.raiseFlag; split <;> rfl
@[simp] theorem State.raiseFlag_pnlState (s : State) (f : Word) : (s.raiseFlag f).pnlState = s.pnlState := by
  unfold State.raiseFlag; split <;> rfl
@[simp] theorem State.raiseFlag_pnlCfg (s : State) (f : Word) : (s.raiseFlag f).pnlCfg = s.pnlCfg := by
  unfold State.raiseFlag; split <;> rfl
@[simp] theorem State.raiseFlag_pnlScratch (s : State) (f : Word) : (s.raiseFlag f).pnlScratch = s.pnlScratch := by
  unfold State.raiseFlag; split <;> rfl
@[simp] theorem State.raiseFlag_pnlOwner (s : State) (f : Word) : (s.raiseFlag f).pnlOwner = s.pnlOwner := by
  unfold State.raiseFlag; split <;> rfl
@[simp] theorem State.raiseFlag_cs (s : State) (f : Word) : (s.raiseFlag f).cs = s.cs := by
  unfold State.raiseFlag; split <;> rfl
@[simp] theorem State.raiseFlag_dcx (s : State) (f : Word) : (s.raiseFlag f).dcx = s.dcx := by
  unfold State.raiseFlag; split <;> rfl
@[simp] theorem State.raiseFlag_wire (s : State) (f : Word) : (s.raiseFlag f).wire = s.wire := by
  unfold State.raiseFlag; split <;> rfl
@[simp] theorem State.raiseFlag_events (s : State) (f : Word) : (s.raiseFlag f).events = s.events := by
  unfold State.raiseFlag; split <;> rfl
@[simp] theorem State.raiseFlag_threads (s : State) (f : Word) : (s.raiseFlag f).threads = s.threads := by
  unfold State.raiseFlag; split <;> rfl
@[simp] theorem State.raiseFlag_irq (s : State) (f : Word) : (s.raiseFlag f).irq = s.irq := by
  unfold State.raiseFlag; split <;> rfl
@[simp] theorem State.raiseFlag_irqResults (s : State) (f : Word) : (s.raiseFlag f).irqResults = s.irqResults := by
  unfold State.raiseFlag; split <;> rfl
@[simp] theorem State.raiseFlag_wakeEv (s : State) (f : Word) : (s.raiseFlag f).wakeEv = s.wakeEv := by
  unfold State.raiseFlag; split <;> rfl
@[simp] theorem State.raiseFlag_wakeEr (s : State) (f : Word) : (s.raiseFlag f).wakeEr = s.wakeEr := by
  unfold State.raiseFlag; split <;> rfl
@[simp] theorem State.raiseFlag_cbBodies (s : State) (f : Word) : (s.raiseFlag f).cbBodies = s.cbBodies := by
  unfold State.raiseFlag; split <;> rfl
@[simp] theorem State.raiseFlag_mem (s : State) (f : Word) : (s.raiseFlag f).mem = s.mem := by
  unfold State.raiseFlag; split <;> rfl
@[simp] theorem State.raiseFlag_draws (s : State) (f : Word) : (s.raiseFlag f).draws = s.draws := by
  unfold State.raiseFlag; split <;> rfl
@[simp] theorem State.raiseFlag_cur (s : State) (f : Word) : (s.raiseFlag f).cur = s.cur := by
  unfold State.raiseFlag; split <;> rfl
@[simp] theorem State.raiseFlag_sched (s : State) (f : Word) : (s.raiseFlag f).sched = s.sched := by
  unfold State.raiseFlag; split <;> rfl

-- ==== mapTop ====

@[simp] theorem State.mapTop_par (s : State) (f : Activation → Activation) : (s.mapTop f).par = s.par := by
  unfold State.mapTop; split <;> rfl
@[simp] theorem State.mapTop_drvState (s : State) (f : Activation → Activation) : (s.mapTop f).drvState = s.drvState := by
  unfold State.mapTop; split <;> rfl
@[simp] theorem State.mapTop_activeWindow (s : State) (f : Activation → Activation) : (s.mapTop f).activeWindow = s.activeWindow := by
  unfold State.mapTop; split <;> rfl
@[simp] theorem State.mapTop_waiter (s : State) (f : Activation → Activation) : (s.mapTop f).waiter = s.waiter := by
  unfold State.mapTop; split <;> rfl
@[simp] theorem State.mapTop_cfg (s : State) (f : Activation → Activation) : (s.mapTop f).cfg = s.cfg := by
  unfold State.mapTop; split <;> rfl
@[simp] theorem State.mapTop_lockHolder (s : State) (f : Activation → Activation) : (s.mapTop f).lockHolder = s.lockHolder := by
  unfold State.mapTop; split <;> rfl
@[simp] theorem State.mapTop_ltdcOwner (s : State) (f : Activation → Activation) : (s.mapTop f).ltdcOwner = s.ltdcOwner := by
  unfold State.mapTop; split <;> rfl
@[simp] theorem State.mapTop_fault (s : State) (f : Activation → Activation) : (s.mapTop f).fault = s.fault := by
  unfold State.mapTop; split <;> rfl
@[simp] theorem State.mapTop_nvicEv (s : State) (f : Activation → Activation) : (s.mapTop f).nvicEv = s.nvicEv := by
  unfold State.mapTop; split <;> rfl
@[simp] theorem State.mapTop_nvicEr (s : State) (f : Activation → Activation) : (s.mapTop f).nvicEr = s.nvicEr := by
  unfold State.mapTop; split <;> rfl
@[simp] theorem State.mapTop_shadow (s : State) (f : Activation → Activation) : (s.mapTop f).shadow = s.shadow := by
  unfold State.mapTop; split <;> rfl
@[simp] theorem State.mapTop_active (s : State) (f : Activation → Activation) : (s.mapTop f).active = s.active := by
  unfold State.mapTop; split <;> rfl
@[simp] theorem State.mapTop_srcr (s : State) (f : Activation → Activation) : (s.mapTop f).srcr = s.srcr := by
  unfold State.mapTop; split <;> rfl
@[simp] theorem State.mapTop_ier (s : State) (f : Activation → Activation) : (s.mapTop f).ier = s.ier := by
  unfold State.mapTop; split <;> rfl
@[simp] theorem State.mapTop_isr (s : State) (f : Activation → Activation) : (s.mapTop f).isr = s.isr := by
  unfold State.mapTop; split <;> rfl
@[simp] theorem State.mapTop_lipcr (s : State) (f : Activation → Activation) : (s.mapTop f).lipcr = s.lipcr := by
  unfold State.mapTop; split <;> rfl
@[simp] theorem State.mapTop_clutShadow (s : State) (f : Activation → Activation) : (s.mapTop f).clutShadow = s.clutShadow := by
  unfold State.mapTop; split <;> rfl
@[simp] theorem State.mapTop_clutActive (s : State) (f : Activation → Activation) : (s.mapTop f).clutActive = s.clutActive := by
  unfold State.mapTop; split <;> rfl
@[simp] theorem State.mapTop_pnlState (s : State) (f : Activation → Activation) : (s.mapTop f).pnlState = s.pnlState := by
  unfold State.mapTop; split <;> rfl
@[simp] theorem State.mapTop_pnlCfg (s : State) (f : Activation → Activation) : (s.mapTop f).pnlCfg = s.pnlCfg := by
  unfold State.mapTop; split <;> rfl
@[simp] theorem State.mapTop_pnlScratch (s : State) (f : Activation → Activation) : (s.mapTop f).pnlScratch = s.pnlScratch := by
  unfold State.mapTop; split <;> rfl
@[simp] theorem State.mapTop_pnlOwner (s : State) (f : Activation → Activation) : (s.mapTop f).pnlOwner = s.pnlOwner := by
  unfold State.mapTop; split <;> rfl
@[simp] theorem State.mapTop_cs (s : State) (f : Activation → Activation) : (s.mapTop f).cs = s.cs := by
  unfold State.mapTop; split <;> rfl
@[simp] theorem State.mapTop_dcx (s : State) (f : Activation → Activation) : (s.mapTop f).dcx = s.dcx := by
  unfold State.mapTop; split <;> rfl
@[simp] theorem State.mapTop_wire (s : State) (f : Activation → Activation) : (s.mapTop f).wire = s.wire := by
  unfold State.mapTop; split <;> rfl
@[simp] theorem State.mapTop_events (s : State) (f : Activation → Activation) : (s.mapTop f).events = s.events := by
  unfold State.mapTop; split <;> rfl
@[simp] theorem State.mapTop_threads (s : State) (f : Activation → Activation) : (s.mapTop f).threads = s.threads := by
  unfold State.mapTop; split <;> rfl
@[simp] theorem State.mapTop_irqResults (s : State) (f : Activation → Activation) : (s.mapTop f).irqResults = s.irqResults := by
  unfold State.mapTop; split <;> rfl
@[simp] theorem State.mapTop_wakeEv (s : State) (f : Activation → Activation) : (s.mapTop f).wakeEv = s.wakeEv := by
  unfold State.mapTop; split <;> rfl
@[simp] theorem State.mapTop_wakeEr (s : State) (f : Activation → Activation) : (s.mapTop f).wakeEr = s.wakeEr := by
  unfold State.mapTop; split <;> rfl
@[simp] theorem State.mapTop_cbBodies (s : State) (f : Activation → Activation) : (s.mapTop f).cbBodies = s.cbBodies := by
  unfold State.mapTop; split <;> rfl
@[simp] theorem State.mapTop_mem (s : State) (f : Activation → Activation) : (s.mapTop f).mem = s.mem := by
  unfold State.mapTop; split <;> rfl
@[simp] theorem State.mapTop_draws (s : State) (f : Activation → Activation) : (s.mapTop f).draws = s.draws := by
  unfold State.mapTop; split <;> rfl
@[simp] theorem State.mapTop_cur (s : State) (f : Activation → Activation) : (s.mapTop f).cur = s.cur := by
  unfold State.mapTop; split <;> rfl
@[simp] theorem State.mapTop_sched (s : State) (f : Activation → Activation) : (s.mapTop f).sched = s.sched := by
  unfold State.mapTop; split <;> rfl

-- ==== sendWake ====

@[simp] theorem State.sendWake_par (s : State) : (s.sendWake).par = s.par := by
  unfold State.sendWake; split <;> simp
@[simp] theorem State.sendWake_drvState (s : State) : (s.sendWake).drvState = s.drvState := by
  unfold State.sendWake; split <;> simp
@[simp] theorem State.sendWake_activeWindow (s : State) : (s.sendWake).activeWindow = s.activeWindow := by
  unfold State.sendWake; split <;> simp
@[simp] theorem State.sendWake_waiter (s : State) : (s.sendWake).waiter = s.waiter := by
  unfold State.sendWake; split <;> simp
@[simp] theorem State.sendWake_cfg (s : State) : (s.sendWake).cfg = s.cfg := by
  unfold State.sendWake; split <;> simp
@[simp] theorem State.sendWake_lockHolder (s : State) : (s.sendWake).lockHolder = s.lockHolder := by
  unfold State.sendWake; split <;> simp
@[simp] theorem State.sendWake_ltdcOwner (s : State) : (s.sendWake).ltdcOwner = s.ltdcOwner := by
  unfold State.sendWake; split <;> simp
@[simp] theorem State.sendWake_fault (s : State) : (s.sendWake).fault = s.fault := by
  unfold State.sendWake; split <;> simp
@[simp] theorem State.sendWake_nvicEv (s : State) : (s.sendWake).nvicEv = s.nvicEv := by
  unfold State.sendWake; split <;> simp
@[simp] theorem State.sendWake_nvicEr (s : State) : (s.sendWake).nvicEr = s.nvicEr := by
  unfold State.sendWake; split <;> simp
@[simp] theorem State.sendWake_shadow (s : State) : (s.sendWake).shadow = s.shadow := by
  unfold State.sendWake; split <;> simp
@[simp] theorem State.sendWake_active (s : State) : (s.sendWake).active = s.active := by
  unfold State.sendWake; split <;> simp
@[simp] theorem State.sendWake_srcr (s : State) : (s.sendWake).srcr = s.srcr := by
  unfold State.sendWake; split <;> simp
@[simp] theorem State.sendWake_ier (s : State) : (s.sendWake).ier = s.ier := by
  unfold State.sendWake; split <;> simp
@[simp] theorem State.sendWake_isr (s : State) : (s.sendWake).isr = s.isr := by
  unfold State.sendWake; split <;> simp
@[simp] theorem State.sendWake_lipcr (s : State) : (s.sendWake).lipcr = s.lipcr := by
  unfold State.sendWake; split <;> simp
@[simp] theorem State.sendWake_clutShadow (s : State) : (s.sendWake).clutShadow = s.clutShadow := by
  unfold State.sendWake; split <;> simp
@[simp] theorem State.sendWake_clutActive (s : State) : (s.sendWake).clutActive = s.clutActive := by
  unfold State.sendWake; split <;> simp
@[simp] theorem State.sendWake_pnlState (s : State) : (s.sendWake).pnlState = s.pnlState := by
  unfold State.sendWake; split <;> simp
@[simp] theorem State.sendWake_pnlCfg (s : State) : (s.sendWake).pnlCfg = s.pnlCfg := by
  unfold State.sendWake; split <;> simp
@[simp] theorem State.sendWake_pnlScratch (s : State) : (s.sendWake).pnlScratch = s.pnlScratch := by
  unfold State.sendWake; split <;> simp
@[simp] theorem State.sendWake_pnlOwner (s : State) : (s.sendWake).pnlOwner = s.pnlOwner := by
  unfold State.sendWake; split <;> simp
@[simp] theorem State.sendWake_cs (s : State) : (s.sendWake).cs = s.cs := by
  unfold State.sendWake; split <;> simp
@[simp] theorem State.sendWake_dcx (s : State) : (s.sendWake).dcx = s.dcx := by
  unfold State.sendWake; split <;> simp
@[simp] theorem State.sendWake_wire (s : State) : (s.sendWake).wire = s.wire := by
  unfold State.sendWake; split <;> simp
@[simp] theorem State.sendWake_events (s : State) : (s.sendWake).events = s.events := by
  unfold State.sendWake; split <;> simp
@[simp] theorem State.sendWake_irq (s : State) : (s.sendWake).irq = s.irq := by
  unfold State.sendWake; split <;> simp
@[simp] theorem State.sendWake_irqResults (s : State) : (s.sendWake).irqResults = s.irqResults := by
  unfold State.sendWake; split <;> simp
@[simp] theorem State.sendWake_cbBodies (s : State) : (s.sendWake).cbBodies = s.cbBodies := by
  unfold State.sendWake; split <;> simp
@[simp] theorem State.sendWake_mem (s : State) : (s.sendWake).mem = s.mem := by
  unfold State.sendWake; split <;> simp
@[simp] theorem State.sendWake_draws (s : State) : (s.sendWake).draws = s.draws := by
  unfold State.sendWake; split <;> simp
@[simp] theorem State.sendWake_cur (s : State) : (s.sendWake).cur = s.cur := by
  unfold State.sendWake; split <;> simp
@[simp] theorem State.sendWake_sched (s : State) : (s.sendWake).sched = s.sched := by
  unfold State.sendWake; split <;> simp

-- ==== logWake ====

@[simp] theorem State.logWake_par (s : State) : (s.logWake).par = s.par := by
  unfold State.logWake; split <;> rfl
@[simp] theorem State.logWake_drvState (s : State) : (s.logWake).drvState = s.drvState := by
  unfold State.logWake; split <;> rfl
@[simp] theorem State.logWake_activeWindow (s : State) : (s.logWake).activeWindow = s.activeWindow := by
  unfold State.logWake; split <;> rfl
@[simp] theorem State.logWake_waiter (s : State) : (s.logWake).waiter = s.waiter := by
  unfold State.logWake; split <;> rfl
@[simp] theorem State.logWake_cfg (s : State) : (s.logWake).cfg = s.cfg := by
  unfold State.logWake; split <;> rfl
@[simp] theorem State.logWake_lockHolder (s : State) : (s.logWake).lockHolder = s.lockHolder := by
  unfold State.logWake; split <;> rfl
@[simp] theorem State.logWake_ltdcOwner (s : State) : (s.logWake).ltdcOwner = s.ltdcOwner := by
  unfold State.logWake; split <;> rfl
@[simp] theorem State.logWake_fault (s : State) : (s.logWake).fault = s.fault := by
  unfold State.logWake; split <;> rfl
@[simp] theorem State.logWake_nvicEv (s : State) : (s.logWake).nvicEv = s.nvicEv := by
  unfold State.logWake; split <;> rfl
@[simp] theorem State.logWake_nvicEr (s : State) : (s.logWake).nvicEr = s.nvicEr := by
  unfold State.logWake; split <;> rfl
@[simp] theorem State.logWake_shadow (s : State) : (s.logWake).shadow = s.shadow := by
  unfold State.logWake; split <;> rfl
@[simp] theorem State.logWake_active (s : State) : (s.logWake).active = s.active := by
  unfold State.logWake; split <;> rfl
@[simp] theorem State.logWake_srcr (s : State) : (s.logWake).srcr = s.srcr := by
  unfold State.logWake; split <;> rfl
@[simp] theorem State.logWake_ier (s : State) : (s.logWake).ier = s.ier := by
  unfold State.logWake; split <;> rfl
@[simp] theorem State.logWake_isr (s : State) : (s.logWake).isr = s.isr := by
  unfold State.logWake; split <;> rfl
@[simp] theorem State.logWake_lipcr (s : State) : (s.logWake).lipcr = s.lipcr := by
  unfold State.logWake; split <;> rfl
@[simp] theorem State.logWake_clutShadow (s : State) : (s.logWake).clutShadow = s.clutShadow := by
  unfold State.logWake; split <;> rfl
@[simp] theorem State.logWake_clutActive (s : State) : (s.logWake).clutActive = s.clutActive := by
  unfold State.logWake; split <;> rfl
@[simp] theorem State.logWake_pnlState (s : State) : (s.logWake).pnlState = s.pnlState := by
  unfold State.logWake; split <;> rfl
@[simp] theorem State.logWake_pnlCfg (s : State) : (s.logWake).pnlCfg = s.pnlCfg := by
  unfold State.logWake; split <;> rfl
@[simp] theorem State.logWake_pnlScratch (s : State) : (s.logWake).pnlScratch = s.pnlScratch := by
  unfold State.logWake; split <;> rfl
@[simp] theorem State.logWake_pnlOwner (s : State) : (s.logWake).pnlOwner = s.pnlOwner := by
  unfold State.logWake; split <;> rfl
@[simp] theorem State.logWake_cs (s : State) : (s.logWake).cs = s.cs := by
  unfold State.logWake; split <;> rfl
@[simp] theorem State.logWake_dcx (s : State) : (s.logWake).dcx = s.dcx := by
  unfold State.logWake; split <;> rfl
@[simp] theorem State.logWake_wire (s : State) : (s.logWake).wire = s.wire := by
  unfold State.logWake; split <;> rfl
@[simp] theorem State.logWake_threads (s : State) : (s.logWake).threads = s.threads := by
  unfold State.logWake; split <;> rfl
@[simp] theorem State.logWake_irq (s : State) : (s.logWake).irq = s.irq := by
  unfold State.logWake; split <;> rfl
@[simp] theorem State.logWake_irqResults (s : State) : (s.logWake).irqResults = s.irqResults := by
  unfold State.logWake; split <;> rfl
@[simp] theorem State.logWake_wakeEv (s : State) : (s.logWake).wakeEv = s.wakeEv := by
  unfold State.logWake; split <;> rfl
@[simp] theorem State.logWake_wakeEr (s : State) : (s.logWake).wakeEr = s.wakeEr := by
  unfold State.logWake; split <;> rfl
@[simp] theorem State.logWake_cbBodies (s : State) : (s.logWake).cbBodies = s.cbBodies := by
  unfold State.logWake; split <;> rfl
@[simp] theorem State.logWake_mem (s : State) : (s.logWake).mem = s.mem := by
  unfold State.logWake; split <;> rfl
@[simp] theorem State.logWake_draws (s : State) : (s.logWake).draws = s.draws := by
  unfold State.logWake; split <;> rfl
@[simp] theorem State.logWake_cur (s : State) : (s.logWake).cur = s.cur := by
  unfold State.logWake; split <;> rfl
@[simp] theorem State.logWake_sched (s : State) : (s.logWake).sched = s.sched := by
  unfold State.logWake; split <;> rfl

-- ==== afterRead ====

@[simp] theorem State.afterRead_par (s : State) (r : Reg) : (s.afterRead r).par = s.par := by
  cases r <;> rfl
@[simp] theorem State.afterRead_drvState (s : State) (r : Reg) : (s.afterRead r).drvState = s.drvState := by
  cases r <;> rfl
@[simp] theorem State.afterRead_activeWindow (s : State) (r : Reg) : (s.afterRead r).activeWindow = s.activeWindow := by
  cases r <;> rfl
@[simp] theorem State.afterRead_waiter (s : State) (r : Reg) : (s.afterRead r).waiter = s.waiter := by
  cases r <;> rfl
@[simp] theorem State.afterRead_cfg (s : State) (r : Reg) : (s.afterRead r).cfg = s.cfg := by
  cases r <;> rfl
@[simp] theorem State.afterRead_lockHolder (s : State) (r : Reg) : (s.afterRead r).lockHolder = s.lockHolder := by
  cases r <;> rfl
@[simp] theorem State.afterRead_ltdcOwner (s : State) (r : Reg) : (s.afterRead r).ltdcOwner = s.ltdcOwner := by
  cases r <;> rfl
@[simp] theorem State.afterRead_fault (s : State) (r : Reg) : (s.afterRead r).fault = s.fault := by
  cases r <;> rfl
@[simp] theorem State.afterRead_nvicEv (s : State) (r : Reg) : (s.afterRead r).nvicEv = s.nvicEv := by
  cases r <;> rfl
@[simp] theorem State.afterRead_nvicEr (s : State) (r : Reg) : (s.afterRead r).nvicEr = s.nvicEr := by
  cases r <;> rfl
@[simp] theorem State.afterRead_shadow (s : State) (r : Reg) : (s.afterRead r).shadow = s.shadow := by
  cases r <;> rfl
@[simp] theorem State.afterRead_active (s : State) (r : Reg) : (s.afterRead r).active = s.active := by
  cases r <;> rfl
@[simp] theorem State.afterRead_srcr (s : State) (r : Reg) : (s.afterRead r).srcr = s.srcr := by
  cases r <;> rfl
@[simp] theorem State.afterRead_ier (s : State) (r : Reg) : (s.afterRead r).ier = s.ier := by
  cases r <;> rfl
@[simp] theorem State.afterRead_isr (s : State) (r : Reg) : (s.afterRead r).isr = s.isr := by
  cases r <;> rfl
@[simp] theorem State.afterRead_lipcr (s : State) (r : Reg) : (s.afterRead r).lipcr = s.lipcr := by
  cases r <;> rfl
@[simp] theorem State.afterRead_clutShadow (s : State) (r : Reg) : (s.afterRead r).clutShadow = s.clutShadow := by
  cases r <;> rfl
@[simp] theorem State.afterRead_clutActive (s : State) (r : Reg) : (s.afterRead r).clutActive = s.clutActive := by
  cases r <;> rfl
@[simp] theorem State.afterRead_pnlState (s : State) (r : Reg) : (s.afterRead r).pnlState = s.pnlState := by
  cases r <;> rfl
@[simp] theorem State.afterRead_pnlCfg (s : State) (r : Reg) : (s.afterRead r).pnlCfg = s.pnlCfg := by
  cases r <;> rfl
@[simp] theorem State.afterRead_pnlScratch (s : State) (r : Reg) : (s.afterRead r).pnlScratch = s.pnlScratch := by
  cases r <;> rfl
@[simp] theorem State.afterRead_pnlOwner (s : State) (r : Reg) : (s.afterRead r).pnlOwner = s.pnlOwner := by
  cases r <;> rfl
@[simp] theorem State.afterRead_cs (s : State) (r : Reg) : (s.afterRead r).cs = s.cs := by
  cases r <;> rfl
@[simp] theorem State.afterRead_dcx (s : State) (r : Reg) : (s.afterRead r).dcx = s.dcx := by
  cases r <;> rfl
@[simp] theorem State.afterRead_wire (s : State) (r : Reg) : (s.afterRead r).wire = s.wire := by
  cases r <;> rfl
@[simp] theorem State.afterRead_events (s : State) (r : Reg) : (s.afterRead r).events = s.events := by
  cases r <;> rfl
@[simp] theorem State.afterRead_threads (s : State) (r : Reg) : (s.afterRead r).threads = s.threads := by
  cases r <;> rfl
@[simp] theorem State.afterRead_irq (s : State) (r : Reg) : (s.afterRead r).irq = s.irq := by
  cases r <;> rfl
@[simp] theorem State.afterRead_irqResults (s : State) (r : Reg) : (s.afterRead r).irqResults = s.irqResults := by
  cases r <;> rfl
@[simp] theorem State.afterRead_wakeEv (s : State) (r : Reg) : (s.afterRead r).wakeEv = s.wakeEv := by
  cases r <;> rfl
@[simp] theorem State.afterRead_wakeEr (s : State) (r : Reg) : (s.afterRead r).wakeEr = s.wakeEr := by
  cases r <;> rfl
@[simp] theorem State.afterRead_cbBodies (s : State) (r : Reg) : (s.afterRead r).cbBodies = s.cbBodies := by
  cases r <;> rfl
@[simp] theorem State.afterRead_mem (s : State) (r : Reg) : (s.afterRead r).mem = s.mem := by
  cases r <;> rfl
@[simp] theorem State.afterRead_cur (s : State) (r : Reg) : (s.afterRead r).cur = s.cur := by
  cases r <;> rfl
@[simp] theorem State.afterRead_sched (s : State) (r : Reg) : (s.afterRead r).sched = s.sched := by
  cases r <;> rfl

-- ==== regWrite ====

@[simp] theorem State.regWrite_par (s : State) (r : Reg) (v : Word) : (s.regWrite r v).par = s.par := by
  cases r with
  | lay l q => simp only [State.regWrite, State.writeLayerReg]; split <;> rfl
  | _ => rfl
@[simp] theorem State.regWrite_drvState (s : State) (r : Reg) (v : Word) : (s.regWrite r v).drvState = s.drvState := by
  cases r with
  | lay l q => simp only [State.regWrite, State.writeLayerReg]; split <;> rfl
  | _ => rfl
@[simp] theorem State.regWrite_activeWindow (s : State) (r : Reg) (v : Word) : (s.regWrite r v).activeWindow = s.activeWindow := by
  cases r with
  | lay l q => simp only [State.regWrite, State.writeLayerReg]; split <;> rfl
  | _ => rfl
@[simp] theorem State.regWrite_waiter (s : State) (r : Reg) (v : Word) : (s.regWrite r v).waiter = s.waiter := by
  cases r with
  | lay l q => simp only [State.regWrite, State.writeLayerReg]; split <;> rfl
  | _ => rfl
@[simp] theorem State.regWrite_cfg (s : State) (r : Reg) (v : Word) : (s.regWrite r v).cfg = s.cfg := by
  cases r with
  | lay l q => simp only [State.regWrite, State.writeLayerReg]; split <;> rfl
  | _ => rfl
@[simp] theorem State.regWrite_lockHolder (s : State) (r : Reg) (v : Word) : (s.regWrite r v).lockHolder = s.lockHolder := by
  cases r with
  | lay l q => simp only [State.regWrite, State.writeLayerReg]; split <;> rfl
  | _ => rfl
@[simp] theorem State.regWrite_ltdcOwner (s : State) (r : Reg) (v : Word) : (s.regWrite r v).ltdcOwner = s.ltdcOwner := by
  cases r with
  | lay l q => simp only [State.regWrite, State.writeLayerReg]; split <;> rfl
  | _ => rfl
@[simp] theorem State.regWrite_fault (s : State) (r : Reg) (v : Word) : (s.regWrite r v).fault = s.fault := by
  cases r with
  | lay l q => simp only [State.regWrite, State.writeLayerReg]; split <;> rfl
  | _ => rfl
@[simp] theorem State.regWrite_nvicEv (s : State) (r : Reg) (v : Word) : (s.regWrite r v).nvicEv = s.nvicEv := by
  cases r with
  | lay l q => simp only [State.regWrite, State.writeLayerReg]; split <;> rfl
  | _ => rfl
@[simp] theorem State.regWrite_nvicEr (s : State) (r : Reg) (v : Word) : (s.regWrite r v).nvicEr = s.nvicEr := by
  cases r with
  | lay l q => simp only [State.regWrite, State.writeLayerReg]; split <;> rfl
  | _ => rfl
@[simp] theorem State.regWrite_active (s : State) (r : Reg) (v : Word) : (s.regWrite r v).active = s.active := by
  cases r with
  | lay l q => simp only [State.regWrite, State.writeLayerReg]; split <;> rfl
  | _ => rfl
@[simp] theorem State.regWrite_clutActive (s : State) (r : Reg) (v : Word) : (s.regWrite r v).clutActive = s.clutActive := by
  cases r with
  | lay l q => simp only [State.regWrite, State.writeLayerReg]; split <;> rfl
  | _ => rfl
@[simp] theorem State.regWrite_pnlState (s : State) (r : Reg) (v : Word) : (s.regWrite r v).pnlState = s.pnlState := by
  cases r with
  | lay l q => simp only [State.regWrite, State.writeLayerReg]; split <;> rfl
  | _ => rfl
@[simp] theorem State.regWrite_pnlCfg (s : State) (r : Reg) (v : Word) : (s.regWrite r v).pnlCfg = s.pnlCfg := by
  cases r with
  | lay l q => simp only [State.regWrite, State.writeLayerReg]; split <;> rfl
  | _ => rfl
@[simp] theorem State.regWrite_pnlScratch (s : State) (r : Reg) (v : Word) : (s.regWrite r v).pnlScratch = s.pnlScratch := by
  cases r with
  | lay l q => simp only [State.regWrite, State.writeLayerReg]; split <;> rfl
  | _ => rfl
@[simp] theorem State.regWrite_pnlOwner (s : State) (r : Reg) (v : Word) : (s.regWrite r v).pnlOwner = s.pnlOwner := by
  cases r with
  | lay l q => simp only [State.regWrite, State.writeLayerReg]; split <;> rfl
  | _ => rfl
@[simp] theorem State.regWrite_cs (s : State) (r : Reg) (v : Word) : (s.regWrite r v).cs = s.cs := by
  cases r with
  | lay l q => simp only [State.regWrite, State.writeLayerReg]; split <;> rfl
  | _ => rfl
@[simp] theorem State.regWrite_dcx (s : State) (r : Reg) (v : Word) : (s.regWrite r v).dcx = s.dcx := by
  cases r with
  | lay l q => simp only [State.regWrite, State.writeLayerReg]; split <;> rfl
  | _ => rfl
@[simp] theorem State.regWrite_wire (s : State) (r : Reg) (v : Word) : (s.regWrite r v).wire = s.wire := by
  cases r with
  | lay l q => simp only [State.regWrite, State.writeLayerReg]; split <;> rfl
  | _ => rfl
@[simp] theorem State.regWrite_events (s : State) (r : Reg) (v : Word) : (s.regWrite r v).events = s.events := by
  cases r with
  | lay l q => simp only [State.regWrite, State.writeLayerReg]; split <;> rfl
  | _ => rfl
@[simp] theorem State.regWrite_threads (s : State) (r : Reg) (v : Word) : (s.regWrite r v).threads = s.threads := by
  cases r with
  | lay l q => simp only [State.regWrite, State.writeLayerReg]; split <;> rfl
  | _ => rfl
@[simp] theorem State.regWrite_irq (s : State) (r : Reg) (v : Word) : (s.regWrite r v).irq = s.irq := by
  cases r with
  | lay l q => simp only [State.regWrite, State.writeLayerReg]; split <;> rfl
  | _ => rfl
@[simp] theorem State.regWrite_irqResults (s : State) (r : Reg) (v : Word) : (s.regWrite r v).irqResults = s.irqResults := by
  cases r with
  | lay l q => simp only [State.regWrite, State.writeLayerReg]; split <;> rfl
  | _ => rfl
@[simp] theorem State.regWrite_wakeEv (s : State) (r : Reg) (v : Word) : (s.regWrite r v).wakeEv = s.wakeEv := by
  cases r with
  | lay l q => simp only [State.regWrite, State.writeLayerReg]; split <;> rfl
  | _ => rfl
@[simp] theorem State.regWrite_wakeEr (s : State) (r : Reg) (v : Word) : (s.regWrite r v).wakeEr = s.wakeEr := by
  cases r with
  | lay l q => simp only [State.regWrite, State.writeLayerReg]; split <;> rfl
  | _ => rfl
@[simp] theorem State.regWrite_cbBodies (s : State) (r : Reg) (v : Word) : (s.regWrite r v).cbBodies = s.cbBodies := by
  cases r with
  | lay l q => simp only [State.regWrite, State.writeLayerReg]; split <;> rfl
  | _ => rfl
@[simp] theorem State.regWrite_mem (s : State) (r : Reg) (v : Word) : (s.regWrite r v).mem = s.mem := by
  cases r with
  | lay l q => simp only [State.regWrite, State.writeLayerReg]; split <;> rfl
  | _ => rfl
@[simp] theorem State.regWrite_draws (s : State) (r : Reg) (v : Word) : (s.regWrite r v).draws = s.draws := by
  cases r with
  | lay l q => simp only [State.regWrite, State.writeLayerReg]; split <;> rfl
  | _ => rfl
@[simp] theorem State.regWrite_cur (s : State) (r : Reg) (v : Word) : (s.regWrite r v).cur = s.cur := by
  cases r with
  | lay l q => simp only [State.regWrite, State.writeLayerReg]; split <;> rfl
  | _ => rfl
@[simp] theorem State.regWrite_sched (s : State) (r : Reg) (v : Word) : (s.regWrite r v).sched = s.sched := by
  cases r with
  | lay l q => simp only [State.regWrite, State.writeLayerReg]; split <;> rfl
  | _ => rfl

-- ==== suspend ====

@[simp] theorem State.suspend_par (s : State) (c : Cell) : (s.suspend c).par = s.par := by
  unfold State.suspend; split <;> (try split) <;> rfl
@[simp] theorem State.suspend_drvState (s : State) (c : Cell) : (s.suspend c).drvState = s.drvState := by
  unfold State.suspend; split <;> (try split) <;> rfl
@[simp] theorem State.suspend_activeWindow (s : State) (c : Cell) : (s.suspend c).activeWindow = s.activeWindow := by
  unfold State.suspend; split <;> (try split) <;> rfl
@[simp] theorem State.suspend_waiter (s : State) (c : Cell) : (s.suspend c).waiter = s.waiter := by
  unfold State.suspend; split <;> (try split) <;> rfl
@[simp] theorem State.suspend_cfg (s : State) (c : Cell) : (s.suspend c).cfg = s.cfg := by
  unfold State.suspend; split <;> (try split) <;> rfl
@[simp] theorem State.suspend_lockHolder (s : State) (c : Cell) : (s.suspend c).lockHolder = s.lockHolder := by
  unfold State.suspend; split <;> (try split) <;> rfl
@[simp] theorem State.suspend_ltdcOwner (s : State) (c : Cell) : (s.suspend c).ltdcOwner = s.ltdcOwner := by
  unfold State.suspend; split <;> (try split) <;> rfl
@[simp] theorem State.suspend_fault (s : State) (c : Cell) : (s.suspend c).fault = s.fault := by
  unfold State.suspend; split <;> (try split) <;> rfl
@[simp] theorem State.suspend_nvicEv (s : State) (c : Cell) : (s.suspend c).nvicEv = s.nvicEv := by
  unfold State.suspend; split <;> (try split) <;> rfl
@[simp] theorem State.suspend_nvicEr (s : State) (c : Cell) : (s.suspend c).nvicEr = s.nvicEr := by
  unfold State.suspend; split <;> (try split) <;> rfl
@[simp] theorem State.suspend_shadow (s : State) (c : Cell) : (s.suspend c).shadow = s.shadow := by
  unfold State.suspend; split <;> (try split) <;> rfl
@[simp] theorem State.suspend_active (s : State) (c : Cell) : (s.suspend c).active = s.active := by
  unfold State.suspend; split <;> (try split) <;> rfl
@[simp] theorem State.suspend_srcr (s : State) (c : Cell) : (s.suspend c).srcr = s.srcr := by
  unfold State.suspend; split <;> (try split) <;> rfl
@[simp] theorem State.suspend_ier (s : State) (c : Cell) : (s.suspend c).ier = s.ier := by
  unfold State.suspend; split <;> (try split) <;> rfl
@[simp] theorem State.suspend_isr (s : State) (c : Cell) : (s.suspend c).isr = s.isr := by
  unfold State.suspend; split <;> (try split) <;> rfl
@[simp] theorem State.suspend_lipcr (s : State) (c : Cell) : (s.suspend c).lipcr = s.lipcr := by
  unfold State.suspend; split <;> (try split) <;> rfl
@[simp] theorem State.suspend_clutShadow (s : State) (c : Cell) : (s.suspend c).clutShadow = s.clutShadow := by
  unfold State.suspend; split <;> (try split) <;> rfl
@[simp] theorem State.suspend_clutActive (s : State) (c : Cell) : (s.suspend c).clutActive = s.clutActive := by
  unfold State.suspend; split <;> (try split) <;> rfl
@[simp] theorem State.suspend_pnlState (s : State) (c : Cell) : (s.suspend c).pnlState = s.pnlState := by
  unfold State.suspend; split <;> (try split) <;> rfl
@[simp] theorem State.suspend_pnlCfg (s : State) (c : Cell) : (s.suspend c).pnlCfg = s.pnlCfg := by
  unfold State.suspend; split <;> (try split) <;> rfl
@[simp] theorem State.suspend_pnlScratch (s : State) (c : Cell) : (s.suspend c).pnlScratch = s.pnlScratch := by
  unfold State.suspend; split <;> (try split) <;> rfl
@[simp] theorem State.suspend_pnlOwner (s : State) (c : Cell) : (s.suspend c).pnlOwner = s.pnlOwner := by
  unfold State.suspend; split <;> (try split) <;> rfl
@[simp] theorem State.suspend_cs (s : State) (c : Cell) : (s.suspend c).cs = s.cs := by
  unfold State.suspend; split <;> (try split) <;> rfl
@[simp] theorem State.suspend_dcx (s : State) (c : Cell) : (s.suspend c).dcx = s.dcx := by
  unfold State.suspend; split <;> (try split) <;> rfl
@[simp] theorem State.suspend_wire (s : State) (c : Cell) : (s.suspend c).wire = s.wire := by
  unfold State.suspend; split <;> (try split) <;> rfl
@[simp] theorem State.suspend_events (s : State) (c : Cell) : (s.suspend c).events = s.events := by
  unfold State.suspend; split <;> (try split) <;> rfl
@[simp] theorem State.suspend_irqResults (s : State) (c : Cell) : (s.suspend c).irqResults = s.irqResults := by
  unfold State.suspend; split <;> (try split) <;> rfl
@[simp] theorem State.suspend_wakeEv (s : State) (c : Cell) : (s.suspend c).wakeEv = s.wakeEv := by
  unfold State.suspend; split <;> (try split) <;> rfl
@[simp] theorem State.suspend_wakeEr (s : State) (c : Cell) : (s.suspend c).wakeEr = s.wakeEr := by
  unfold State.suspend; split <;> (try split) <;> rfl
@[simp] theorem State.suspend_cbBodies (s : State) (c : Cell) : (s.suspend c).cbBodies = s.cbBodies := by
  unfold State.suspend; split <;> (try split) <;> rfl
@[simp] theorem State.suspend_mem (s : State) (c : Cell) : (s.suspend c).mem = s.mem := by
  unfold State.suspend; split <;> (try split) <;> rfl
@[simp] theorem State.suspend_draws (s : State) (c : Cell) : (s.suspend c).draws = s.draws := by
  unfold State.suspend; split <;> (try split) <;> rfl
@[simp] theorem State.suspend_cur (s : State) (c : Cell) : (s.suspend c).cur = s.cur := by
  unfold State.suspend; split <;> (try split) <;> rfl
@[simp] theorem State.suspend_sched (s : State) (c : Cell) : (s.suspend c).sched = s.sched := by
  unfold State.suspend; split <;> (try split) <;> rfl

-- ==== acked ====

@[simp] theorem State.acked_par (s : State) (f : Word) : (s.acked f).par = s.par := rfl
@[simp] theorem State.acked_drvState (s : State) (f : Word) : (s.acked f).drvState = s.drvState := rfl
@[simp] theorem State.acked_activeWindow (s : State) (f : Word) : (s.acked f).activeWindow = s.activeWindow := rfl
@[simp] theorem State.acked_waiter (s : State) (f : Word) : (s.acked f).waiter = s.waiter := rfl
@[simp] theorem State.acked_cfg (s : State) (f : Word) : (s.acked f).cfg = s.cfg := rfl
@[simp] theorem State.acked_lockHolder (s : State) (f : Word) : (s.acked f).lockHolder = s.lockHolder := rfl
@[simp] theorem State.acked_ltdcOwner (s : State) (f : Word) : (s.acked f).ltdcOwner = s.ltdcOwner := rfl
@[simp] theorem State.acked_fault (s : State) (f : Word) : (s.acked f).fault = s.fault := rfl
@[simp] theorem State.acked_nvicEv (s : State) (f : Word) : (s.acked f).nvicEv = s.nvicEv := rfl
@[simp] theorem State.acked_nvicEr (s : State) (f : Word) : (s.acked f).nvicEr = s.nvicEr := rfl
@[simp] theorem State.acked_shadow (s : State) (f : Word) : (s.acked f).shadow = s.shadow := rfl
@[simp] theorem State.acked_active (s : State) (f : Word) : (s.acked f).active = s.active := rfl
@[simp] theorem State.acked_srcr (s : State) (f : Word) : (s.acked f).srcr = s.srcr := rfl
@[simp] theorem State.acked_ier (s : State) (f : Word) : (s.acked f).ier = s.ier := rfl
@[simp] theorem State.acked_lipcr (s : State) (f : Word) : (s.acked f).lipcr = s.lipcr := rfl
@[simp] theorem State.acked_clutShadow (s : State) (f : Word) : (s.acked f).clutShadow = s.clutShadow := rfl
@[simp] theorem State.acked_clutActive (s : State) (f : Word) : (s.acked f).clutActive = s.clutActive := rfl
@[simp] theorem State.acked_pnlState (s : State) (f : Word) : (s.acked f).pnlState = s.pnlState := rfl
@[simp] theorem State.acked_pnlCfg (s : State) (f : Word) : (s.acked f).pnlCfg = s.pnlCfg := rfl
@[simp] theorem State.acked_pnlScratch (s : State) (f : Word) : (s.acked f).pnlScratch = s.pnlScratch := rfl
@[simp] theorem State.acked_pnlOwner (s : State) (f : Word) : (s.acked f).pnlOwner = s.pnlOwner := rfl
@[simp] theorem State.acked_cs (s : State) (f : Word) : (s.acked f).cs = s.cs := rfl
@[simp] theorem State.acked_dcx (s : State) (f : Word) : (s.acked f).dcx = s.dcx := rfl
@[simp] theorem State.acked_wire (s : State) (f : Word) : (s.acked f).wire = s.wire := rfl
@[simp] theorem State.acked_events (s : State) (f : Word) : (s.acked f).events = s.events := rfl
@[simp] theorem State.acked_threads (s : State) (f : Word) : (s.acked f).threads = s.threads := rfl
@[simp] theorem State.acked_irq (s : State) (f : Word) : (s.acked f).irq = s.irq := rfl
@[simp] theorem State.acked_irqResults (s : State) (f : Word) : (s.acked f).irqResults = s.irqResults := rfl
@[simp] theorem State.acked_wakeEv (s : State) (f : Word) : (s.acked f).wakeEv = s.wakeEv := rfl
@[simp] theorem State.acked_wakeEr (s : State) (f : Word) : (s.acked f).wakeEr = s.wakeEr := rfl
@[simp] theorem State.acked_cbBodies (s : State) (f : Word) : (s.acked f).cbBodies = s.cbBodies := rfl
@[simp] theorem State.acked_mem (s : State) (f : Word) : (s.acked f).mem = s.mem := rfl
@[simp] theorem State.acked_draws (s : State) (f : Word) : (s.acked f).draws = s.draws := rfl
@[simp] theorem State.acked_cur (s : State) (f : Word) : (s.acked f).cur = s.cur := rfl
@[simp] theorem State.acked_sched (s : State) (f : Word) : (s.acked f).sched = s.sched := rfl

-- ==== called ====

@[simp] theorem State.called_par (s : State) (v : Vec) (k : CbKind) (off : Word) (n : Nat) (log : List Word) (below : List Activation) : (s.called v k off n log below).par = s.par := rfl
@[simp] theorem State.called_drvState (s : State) (v : Vec) (k : CbKind) (off : Word) (n : Nat) (log : List Word) (below : List Activation) : (s.called v k off n log below).drvState = s.drvState := rfl
@[simp] theorem State.called_activeWindow (s : State) (v : Vec) (k : CbKind) (off : Word) (n : Nat) (log : List Word) (below : List Activation) : (s.called v k off n log below).activeWindow = s.activeWindow := rfl
@[simp] theorem State.called_waiter (s : State) (v : Vec) (k : CbKind) (off : Word) (n : Nat) (log : List Word) (below : List Activation) : (s.called v k off n log below).waiter = s.waiter := rfl
@[simp] theorem State.called_cfg (s : State) (v : Vec) (k : CbKind) (off : Word) (n : Nat) (log : List Word) (below : List Activation) : (s.called v k off n log below).cfg = s.cfg := rfl
@[simp] theorem State.called_lockHolder (s : State) (v : Vec) (k : CbKind) (off : Word) (n : Nat) (log : List Word) (below : List Activation) : (s.called v k off n log below).lockHolder = s.lockHolder := rfl
@[simp] theorem State.called_ltdcOwner (s : State) (v : Vec) (k : CbKind) (off : Word) (n : Nat) (log : List Word) (below : List Activation) : (s.called v k off n log below).ltdcOwner = s.ltdcOwner := rfl
@[simp] theorem State.called_fault (s : State) (v : Vec) (k : CbKind) (off : Word) (n : Nat) (log : List Word) (below : List Activation) : (s.called v k off n log below).fault = s.fault := rfl
@[simp] theorem State.called_nvicEv (s : State) (v : Vec) (k : CbKind) (off : Word) (n : Nat) (log : List Word) (below : List Activation) : (s.called v k off n log below).nvicEv = s.nvicEv := rfl
@[simp] theorem State.called_nvicEr (s : State) (v : Vec) (k : CbKind) (off : Word) (n : Nat) (log : List Word) (below : List Activation) : (s.called v k off n log below).nvicEr = s.nvicEr := rfl
@[simp] theorem State.called_shadow (s : State) (v : Vec) (k : CbKind) (off : Word) (n : Nat) (log : List Word) (below : List Activation) : (s.called v k off n log below).shadow = s.shadow := rfl
@[simp] theorem State.called_active (s : State) (v : Vec) (k : CbKind) (off : Word) (n : Nat) (log : List Word) (below : List Activation) : (s.called v k off n log below).active = s.active := rfl
@[simp] theorem State.called_srcr (s : State) (v : Vec) (k : CbKind) (off : Word) (n : Nat) (log : List Word) (below : List Activation) : (s.called v k off n log below).srcr = s.srcr := rfl
@[simp] theorem State.called_ier (s : State) (v : Vec) (k : CbKind) (off : Word) (n : Nat) (log : List Word) (below : List Activation) : (s.called v k off n log below).ier = s.ier := rfl
@[simp] theorem State.called_isr (s : State) (v : Vec) (k : CbKind) (off : Word) (n : Nat) (log : List Word) (below : List Activation) : (s.called v k off n log below).isr = s.isr := rfl
@[simp] theorem State.called_lipcr (s : State) (v : Vec) (k : CbKind) (off : Word) (n : Nat) (log : List Word) (below : List Activation) : (s.called v k off n log below).lipcr = s.lipcr := rfl
@[simp] theorem State.called_clutShadow (s : State) (v : Vec) (k : CbKind) (off : Word) (n : Nat) (log : List Word) (below : List Activation) : (s.called v k off n log below).clutShadow = s.clutShadow := rfl
@[simp] theorem State.called_clutActive (s : State) (v : Vec) (k : CbKind) (off : Word) (n : Nat) (log : List Word) (below : List Activation) : (s.called v k off n log below).clutActive = s.clutActive := rfl
@[simp] theorem State.called_pnlState (s : State) (v : Vec) (k : CbKind) (off : Word) (n : Nat) (log : List Word) (below : List Activation) : (s.called v k off n log below).pnlState = s.pnlState := rfl
@[simp] theorem State.called_pnlCfg (s : State) (v : Vec) (k : CbKind) (off : Word) (n : Nat) (log : List Word) (below : List Activation) : (s.called v k off n log below).pnlCfg = s.pnlCfg := rfl
@[simp] theorem State.called_pnlScratch (s : State) (v : Vec) (k : CbKind) (off : Word) (n : Nat) (log : List Word) (below : List Activation) : (s.called v k off n log below).pnlScratch = s.pnlScratch := rfl
@[simp] theorem State.called_pnlOwner (s : State) (v : Vec) (k : CbKind) (off : Word) (n : Nat) (log : List Word) (below : List Activation) : (s.called v k off n log below).pnlOwner = s.pnlOwner := rfl
@[simp] theorem State.called_cs (s : State) (v : Vec) (k : CbKind) (off : Word) (n : Nat) (log : List Word) (below : List Activation) : (s.called v k off n log below).cs = s.cs := rfl
@[simp] theorem State.called_dcx (s : State) (v : Vec) (k : CbKind) (off : Word) (n : Nat) (log : List Word) (below : List Activation) : (s.called v k off n log below).dcx = s.dcx := rfl
@[simp] theorem State.called_wire (s : State) (v : Vec) (k : CbKind) (off : Word) (n : Nat) (log : List Word) (below : List Activation) : (s.called v k off n log below).wire = s.wire := rfl
@[simp] theorem State.called_threads (s : State) (v : Vec) (k : CbKind) (off : Word) (n : Nat) (log : List Word) (below : List Activation) : (s.called v k off n log below).threads = s.threads := rfl
@[simp] theorem State.called_irqResults (s : State) (v : Vec) (k : CbKind) (off : Word) (n : Nat) (log : List Word) (below : List Activation) : (s.called v k off n log below).irqResults = s.irqResults := rfl
@[simp] theorem State.called_wakeEv (s : State) (v : Vec) (k : CbKind) (off : Word) (n : Nat) (log : List Word) (below : List Activation) : (s.called v k off n log below).wakeEv = s.wakeEv := rfl
@[simp] theorem State.called_wakeEr (s : State) (v : Vec) (k : CbKind) (off : Word) (n : Nat) (log : List Word) (below : List Activation) : (s.called v k off n log below).wakeEr = s.wakeEr := rfl
@[simp] theorem State.called_cbBodies (s : State) (v : Vec) (k : CbKind) (off : Word) (n : Nat) (log : List Word) (below : List Activation) : (s.called v k off n log below).cbBodies = s.cbBodies := rfl
@[simp] theorem State.called_mem (s : State) (v : Vec) (k : CbKind) (off : Word) (n : Nat) (log : List Word) (below : List Activation) : (s.called v k off n log below).mem = s.mem := rfl
@[simp] theorem State.called_draws (s : State) (v : Vec) (k : CbKind) (off : Word) (n : Nat) (log : List Word) (below : List Activation) : (s.called v k off n log below).draws = s.draws := rfl
@[simp] theorem State.called_cur (s : State) (v : Vec) (k : CbKind) (off : Word) (n : Nat) (log : List Word) (below : List Activation) : (s.called v k off n log below).cur = s.cur := rfl
@[simp] theorem State.called_sched (s : State) (v : Vec) (k : CbKind) (off : Word) (n : Nat) (log : List Word) (below : List Activation) : (s.called v k off n log below).sched = s.sched := rfl

-- ==== timed ====

@[simp] theorem State.timed_par (s : State) (p : Word) (c : ConfigD) : (s.timed p c).par = s.par := rfl
@[simp] theorem State.timed_drvState (s : State) (p : Word) (c : ConfigD) : (s.timed p c).drvState = s.drvState := rfl
@[simp] theorem State.timed_waiter (s : State) (p : Word) (c : ConfigD) : (s.timed p c).waiter = s.waiter := rfl
@[simp] theorem State.timed_lockHolder (s : State) (p : Word) (c : ConfigD) : (s.timed p c).lockHolder = s.lockHolder := rfl
@[simp] theorem State.timed_ltdcOwner (s : State) (p : Word) (c : ConfigD) : (s.timed p c).ltdcOwner = s.ltdcOwner := rfl
@[simp] theorem State.timed_fault (s : State) (p : Word) (c : ConfigD) : (s.timed p c).fault = s.fault := rfl
@[simp] theorem State.timed_nvicEv (s : State) (p : Word) (c : ConfigD) : (s.timed p c).nvicEv = s.nvicEv := rfl
@[simp] theorem State.timed_nvicEr (s : State) (p : Word) (c : ConfigD) : (s.timed p c).nvicEr = s.nvicEr := rfl
@[simp] theorem State.timed_lipcr (s : State) (p : Word) (c : ConfigD) : (s.timed p c).lipcr = s.lipcr := rfl
@[simp] theorem State.timed_clutShadow (s : State) (p : Word) (c : ConfigD) : (s.timed p c).clutShadow = s.clutShadow := rfl
@[simp] theorem State.timed_pnlState (s : State) (p : Word) (c : ConfigD) : (s.timed p c).pnlState = s.pnlState := rfl
@[simp] theorem State.timed_pnlCfg (s : State) (p : Word) (c : ConfigD) : (s.timed p c).pnlCfg = s.pnlCfg := rfl
@[simp] theorem State.timed_pnlScratch (s : State) (p : Word) (c : ConfigD) : (s.timed p c).pnlScratch = s.pnlScratch := rfl
@[simp] theorem State.timed_pnlOwner (s : State) (p : Word) (c : ConfigD) : (s.timed p c).pnlOwner = s.pnlOwner := rfl
@[simp] theorem State.timed_cs (s : State) (p : Word) (c : ConfigD) : (s.timed p c).cs = s.cs := rfl
@[simp] theorem State.timed_dcx (s : State) (p : Word) (c : ConfigD) : (s.timed p c).dcx = s.dcx := rfl
@[simp] theorem State.timed_wire (s : State) (p : Word) (c : ConfigD) : (s.timed p c).wire = s.wire := rfl
@[simp] theorem State.timed_threads (s : State) (p : Word) (c : ConfigD) : (s.timed p c).threads = s.threads := rfl
@[simp] theorem State.timed_irq (s : State) (p : Word) (c : ConfigD) : (s.timed p c).irq = s.irq := rfl
@[simp] theorem State.timed_irqResults (s : State) (p : Word) (c : ConfigD) : (s.timed p c).irqResults = s.irqResults := rfl
@[simp] theorem State.timed_wakeEv (s : State) (p : Word) (c : ConfigD) : (s.timed p c).wakeEv = s.wakeEv := rfl
@[simp] theorem State.timed_wakeEr (s : State) (p : Word) (c : ConfigD) : (s.timed p c).wakeEr = s.wakeEr := rfl
@[simp] theorem State.timed_cbBodies (s : State) (p : Word) (c : ConfigD) : (s.timed p c).cbBodies = s.cbBodies := rfl
@[simp] theorem State.timed_mem (s : State) (p : Word) (c : ConfigD) : (s.timed p c).mem = s.mem := rfl
@[simp] theorem State.timed_draws (s : State) (p : Word) (c : ConfigD) : (s.timed p c).draws = s.draws := rfl
@[simp] theorem State.timed_cur (s : State) (p : Word) (c : ConfigD) : (s.timed p c).cur = s.cur := rfl
@[simp] theorem State.timed_sched (s : State) (p : Word) (c : ConfigD) : (s.timed p c).sched = s.sched := rfl

-- ==== finish ====

@[simp] theorem State.finish_par (s : State) (w : CmdWord) (v : ResultVal) : (s.finish w v).par = s.par := by
  unfold State.finish; split <;> (try split) <;> rfl
@[simp] theorem State.finish_drvState (s : State) (w : CmdWord) (v : ResultVal) : (s.finish w v).drvState = s.drvState := by
  unfold State.finish; split <;> (try split) <;> rfl
@[simp] theorem State.finish_activeWindow (s : State) (w : CmdWord) (v : ResultVal) : (s.finish w v).activeWindow = s.activeWindow := by
  unfold State.finish; split <;> (try split) <;> rfl
@[simp] theorem State.finish_waiter (s : State) (w : CmdWord) (v : ResultVal) : (s.finish w v).waiter = s.waiter := by
  unfold State.finish; split <;> (try split) <;> rfl
@[simp] theorem State.finish_cfg (s : State) (w : CmdWord) (v : ResultVal) : (s.finish w v).cfg = s.cfg := by
  unfold State.finish; split <;> (try split) <;> rfl
@[simp] theorem State.finish_lockHolder (s : State) (w : CmdWord) (v : ResultVal) : (s.finish w v).lockHolder = s.lockHolder := by
  unfold State.finish; split <;> (try split) <;> rfl
@[simp] theorem State.finish_ltdcOwner (s : State) (w : CmdWord) (v : ResultVal) : (s.finish w v).ltdcOwner = s.ltdcOwner := by
  unfold State.finish; split <;> (try split) <;> rfl
@[simp] theorem State.finish_fault (s : State) (w : CmdWord) (v : ResultVal) : (s.finish w v).fault = s.fault := by
  unfold State.finish; split <;> (try split) <;> rfl
@[simp] theorem State.finish_nvicEv (s : State) (w : CmdWord) (v : ResultVal) : (s.finish w v).nvicEv = s.nvicEv := by
  unfold State.finish; split <;> (try split) <;> rfl
@[simp] theorem State.finish_nvicEr (s : State) (w : CmdWord) (v : ResultVal) : (s.finish w v).nvicEr = s.nvicEr := by
  unfold State.finish; split <;> (try split) <;> rfl
@[simp] theorem State.finish_shadow (s : State) (w : CmdWord) (v : ResultVal) : (s.finish w v).shadow = s.shadow := by
  unfold State.finish; split <;> (try split) <;> rfl
@[simp] theorem State.finish_active (s : State) (w : CmdWord) (v : ResultVal) : (s.finish w v).active = s.active := by
  unfold State.finish; split <;> (try split) <;> rfl
@[simp] theorem State.finish_srcr (s : State) (w : CmdWord) (v : ResultVal) : (s.finish w v).srcr = s.srcr := by
  unfold State.finish; split <;> (try split) <;> rfl
@[simp] theorem State.finish_ier (s : State) (w : CmdWord) (v : ResultVal) : (s.finish w v).ier = s.ier := by
  unfold State.finish; split <;> (try split) <;> rfl
@[simp] theorem State.finish_isr (s : State) (w : CmdWord) (v : ResultVal) : (s.finish w v).isr = s.isr := by
  unfold State.finish; split <;> (try split) <;> rfl
@[simp] theorem State.finish_lipcr (s : State) (w : CmdWord) (v : ResultVal) : (s.finish w v).lipcr = s.lipcr := by
  unfold State.finish; split <;> (try split) <;> rfl
@[simp] theorem State.finish_clutShadow (s : State) (w : CmdWord) (v : ResultVal) : (s.finish w v).clutShadow = s.clutShadow := by
  unfold State.finish; split <;> (try split) <;> rfl
@[simp] theorem State.finish_clutActive (s : State) (w : CmdWord) (v : ResultVal) : (s.finish w v).clutActive = s.clutActive := by
  unfold State.finish; split <;> (try split) <;> rfl
@[simp] theorem State.finish_pnlState (s : State) (w : CmdWord) (v : ResultVal) : (s.finish w v).pnlState = s.pnlState := by
  unfold State.finish; split <;> (try split) <;> rfl
@[simp] theorem State.finish_pnlCfg (s : State) (w : CmdWord) (v : ResultVal) : (s.finish w v).pnlCfg = s.pnlCfg := by
  unfold State.finish; split <;> (try split) <;> rfl
@[simp] theorem State.finish_pnlScratch (s : State) (w : CmdWord) (v : ResultVal) : (s.finish w v).pnlScratch = s.pnlScratch := by
  unfold State.finish; split <;> (try split) <;> rfl
@[simp] theorem State.finish_pnlOwner (s : State) (w : CmdWord) (v : ResultVal) : (s.finish w v).pnlOwner = s.pnlOwner := by
  unfold State.finish; split <;> (try split) <;> rfl
@[simp] theorem State.finish_cs (s : State) (w : CmdWord) (v : ResultVal) : (s.finish w v).cs = s.cs := by
  unfold State.finish; split <;> (try split) <;> rfl
@[simp] theorem State.finish_dcx (s : State) (w : CmdWord) (v : ResultVal) : (s.finish w v).dcx = s.dcx := by
  unfold State.finish; split <;> (try split) <;> rfl
@[simp] theorem State.finish_wire (s : State) (w : CmdWord) (v : ResultVal) : (s.finish w v).wire = s.wire := by
  unfold State.finish; split <;> (try split) <;> rfl
@[simp] theorem State.finish_events (s : State) (w : CmdWord) (v : ResultVal) : (s.finish w v).events = s.events := by
  unfold State.finish; split <;> (try split) <;> rfl
@[simp] theorem State.finish_wakeEv (s : State) (w : CmdWord) (v : ResultVal) : (s.finish w v).wakeEv = s.wakeEv := by
  unfold State.finish; split <;> (try split) <;> rfl
@[simp] theorem State.finish_wakeEr (s : State) (w : CmdWord) (v : ResultVal) : (s.finish w v).wakeEr = s.wakeEr := by
  unfold State.finish; split <;> (try split) <;> rfl
@[simp] theorem State.finish_cbBodies (s : State) (w : CmdWord) (v : ResultVal) : (s.finish w v).cbBodies = s.cbBodies := by
  unfold State.finish; split <;> (try split) <;> rfl
@[simp] theorem State.finish_mem (s : State) (w : CmdWord) (v : ResultVal) : (s.finish w v).mem = s.mem := by
  unfold State.finish; split <;> (try split) <;> rfl
@[simp] theorem State.finish_draws (s : State) (w : CmdWord) (v : ResultVal) : (s.finish w v).draws = s.draws := by
  unfold State.finish; split <;> (try split) <;> rfl
@[simp] theorem State.finish_cur (s : State) (w : CmdWord) (v : ResultVal) : (s.finish w v).cur = s.cur := by
  unfold State.finish; split <;> (try split) <;> rfl
@[simp] theorem State.finish_sched (s : State) (w : CmdWord) (v : ResultVal) : (s.finish w v).sched = s.sched := by
  unfold State.finish; split <;> (try split) <;> rfl

-- ==== raise ====

@[simp] theorem State.raise_par (s : State) (c : Cell) (e : FaultCode) (i : Option CmdWord) :
    (s.raise c e i).par = s.par := by
  simp [State.raise]
@[simp] theorem State.raise_drvState (s : State) (c : Cell) (e : FaultCode) (i : Option CmdWord) :
    (s.raise c e i).drvState = s.drvState := by
  simp [State.raise]
@[simp] theorem State.raise_activeWindow (s : State) (c : Cell) (e : FaultCode) (i : Option CmdWord) :
    (s.raise c e i).activeWindow = s.activeWindow := by
  simp [State.raise]
@[simp] theorem State.raise_waiter (s : State) (c : Cell) (e : FaultCode) (i : Option CmdWord) :
    (s.raise c e i).waiter = s.waiter := by
  simp [State.raise]
@[simp] theorem State.raise_cfg (s : State) (c : Cell) (e : FaultCode) (i : Option CmdWord) :
    (s.raise c e i).cfg = s.cfg := by
  simp [State.raise]
@[simp] theorem State.raise_lockHolder (s : State) (c : Cell) (e : FaultCode) (i : Option CmdWord) :
    (s.raise c e i).lockHolder = s.lockHolder := by
  simp [State.raise]
@[simp] theorem State.raise_ltdcOwner (s : State) (c : Cell) (e : FaultCode) (i : Option CmdWord) :
    (s.raise c e i).ltdcOwner = s.ltdcOwner := by
  simp [State.raise]
@[simp] theorem State.raise_nvicEv (s : State) (c : Cell) (e : FaultCode) (i : Option CmdWord) :
    (s.raise c e i).nvicEv = s.nvicEv := by
  simp [State.raise]
@[simp] theorem State.raise_nvicEr (s : State) (c : Cell) (e : FaultCode) (i : Option CmdWord) :
    (s.raise c e i).nvicEr = s.nvicEr := by
  simp [State.raise]
@[simp] theorem State.raise_shadow (s : State) (c : Cell) (e : FaultCode) (i : Option CmdWord) :
    (s.raise c e i).shadow = s.shadow := by
  simp [State.raise]
@[simp] theorem State.raise_active (s : State) (c : Cell) (e : FaultCode) (i : Option CmdWord) :
    (s.raise c e i).active = s.active := by
  simp [State.raise]
@[simp] theorem State.raise_srcr (s : State) (c : Cell) (e : FaultCode) (i : Option CmdWord) :
    (s.raise c e i).srcr = s.srcr := by
  simp [State.raise]
@[simp] theorem State.raise_ier (s : State) (c : Cell) (e : FaultCode) (i : Option CmdWord) :
    (s.raise c e i).ier = s.ier := by
  simp [State.raise]
@[simp] theorem State.raise_isr (s : State) (c : Cell) (e : FaultCode) (i : Option CmdWord) :
    (s.raise c e i).isr = s.isr := by
  simp [State.raise]
@[simp] theorem State.raise_lipcr (s : State) (c : Cell) (e : FaultCode) (i : Option CmdWord) :
    (s.raise c e i).lipcr = s.lipcr := by
  simp [State.raise]
@[simp] theorem State.raise_clutShadow (s : State) (c : Cell) (e : FaultCode) (i : Option CmdWord) :
    (s.raise c e i).clutShadow = s.clutShadow := by
  simp [State.raise]
@[simp] theorem State.raise_clutActive (s : State) (c : Cell) (e : FaultCode) (i : Option CmdWord) :
    (s.raise c e i).clutActive = s.clutActive := by
  simp [State.raise]
@[simp] theorem State.raise_pnlState (s : State) (c : Cell) (e : FaultCode) (i : Option CmdWord) :
    (s.raise c e i).pnlState = s.pnlState := by
  simp [State.raise]
@[simp] theorem State.raise_pnlCfg (s : State) (c : Cell) (e : FaultCode) (i : Option CmdWord) :
    (s.raise c e i).pnlCfg = s.pnlCfg := by
  simp [State.raise]
@[simp] theorem State.raise_pnlScratch (s : State) (c : Cell) (e : FaultCode) (i : Option CmdWord) :
    (s.raise c e i).pnlScratch = s.pnlScratch := by
  simp [State.raise]
@[simp] theorem State.raise_pnlOwner (s : State) (c : Cell) (e : FaultCode) (i : Option CmdWord) :
    (s.raise c e i).pnlOwner = s.pnlOwner := by
  simp [State.raise]
@[simp] theorem State.raise_cs (s : State) (c : Cell) (e : FaultCode) (i : Option CmdWord) :
    (s.raise c e i).cs = s.cs := by
  simp [State.raise]
@[simp] theorem State.raise_dcx (s : State) (c : Cell) (e : FaultCode) (i : Option CmdWord) :
    (s.raise c e i).dcx = s.dcx := by
  simp [State.raise]
@[simp] theorem State.raise_wire (s : State) (c : Cell) (e : FaultCode) (i : Option CmdWord) :
    (s.raise c e i).wire = s.wire := by
  simp [State.raise]
@[simp] theorem State.raise_irqResults (s : State) (c : Cell) (e : FaultCode) (i : Option CmdWord) :
    (s.raise c e i).irqResults = s.irqResults := by
  simp [State.raise]
@[simp] theorem State.raise_wakeEv (s : State) (c : Cell) (e : FaultCode) (i : Option CmdWord) :
    (s.raise c e i).wakeEv = s.wakeEv := by
  simp [State.raise]
@[simp] theorem State.raise_wakeEr (s : State) (c : Cell) (e : FaultCode) (i : Option CmdWord) :
    (s.raise c e i).wakeEr = s.wakeEr := by
  simp [State.raise]
@[simp] theorem State.raise_cbBodies (s : State) (c : Cell) (e : FaultCode) (i : Option CmdWord) :
    (s.raise c e i).cbBodies = s.cbBodies := by
  simp [State.raise]
@[simp] theorem State.raise_mem (s : State) (c : Cell) (e : FaultCode) (i : Option CmdWord) :
    (s.raise c e i).mem = s.mem := by
  simp [State.raise]
@[simp] theorem State.raise_draws (s : State) (c : Cell) (e : FaultCode) (i : Option CmdWord) :
    (s.raise c e i).draws = s.draws := by
  simp [State.raise]
@[simp] theorem State.raise_cur (s : State) (c : Cell) (e : FaultCode) (i : Option CmdWord) :
    (s.raise c e i).cur = s.cur := by
  simp [State.raise]
@[simp] theorem State.raise_sched (s : State) (c : Cell) (e : FaultCode) (i : Option CmdWord) :
    (s.raise c e i).sched = s.sched := by
  simp [State.raise]

-- ==== rasterStep ====

@[simp] theorem State.rasterStep_par (s : State) (a : RasterAct) : (s.rasterStep a).par = s.par := by
  cases a <;> simp only [State.rasterStep] <;> (try split) <;> simp
@[simp] theorem State.rasterStep_drvState (s : State) (a : RasterAct) : (s.rasterStep a).drvState = s.drvState := by
  cases a <;> simp only [State.rasterStep] <;> (try split) <;> simp
@[simp] theorem State.rasterStep_activeWindow (s : State) (a : RasterAct) : (s.rasterStep a).activeWindow = s.activeWindow := by
  cases a <;> simp only [State.rasterStep] <;> (try split) <;> simp
@[simp] theorem State.rasterStep_waiter (s : State) (a : RasterAct) : (s.rasterStep a).waiter = s.waiter := by
  cases a <;> simp only [State.rasterStep] <;> (try split) <;> simp
@[simp] theorem State.rasterStep_cfg (s : State) (a : RasterAct) : (s.rasterStep a).cfg = s.cfg := by
  cases a <;> simp only [State.rasterStep] <;> (try split) <;> simp
@[simp] theorem State.rasterStep_lockHolder (s : State) (a : RasterAct) : (s.rasterStep a).lockHolder = s.lockHolder := by
  cases a <;> simp only [State.rasterStep] <;> (try split) <;> simp
@[simp] theorem State.rasterStep_ltdcOwner (s : State) (a : RasterAct) : (s.rasterStep a).ltdcOwner = s.ltdcOwner := by
  cases a <;> simp only [State.rasterStep] <;> (try split) <;> simp
@[simp] theorem State.rasterStep_fault (s : State) (a : RasterAct) : (s.rasterStep a).fault = s.fault := by
  cases a <;> simp only [State.rasterStep] <;> (try split) <;> simp
@[simp] theorem State.rasterStep_nvicEv (s : State) (a : RasterAct) : (s.rasterStep a).nvicEv = s.nvicEv := by
  cases a <;> simp only [State.rasterStep] <;> (try split) <;> simp
@[simp] theorem State.rasterStep_nvicEr (s : State) (a : RasterAct) : (s.rasterStep a).nvicEr = s.nvicEr := by
  cases a <;> simp only [State.rasterStep] <;> (try split) <;> simp
@[simp] theorem State.rasterStep_shadow (s : State) (a : RasterAct) : (s.rasterStep a).shadow = s.shadow := by
  cases a <;> simp only [State.rasterStep] <;> (try split) <;> simp
@[simp] theorem State.rasterStep_ier (s : State) (a : RasterAct) : (s.rasterStep a).ier = s.ier := by
  cases a <;> simp only [State.rasterStep] <;> (try split) <;> simp
@[simp] theorem State.rasterStep_lipcr (s : State) (a : RasterAct) : (s.rasterStep a).lipcr = s.lipcr := by
  cases a <;> simp only [State.rasterStep] <;> (try split) <;> simp
@[simp] theorem State.rasterStep_clutShadow (s : State) (a : RasterAct) : (s.rasterStep a).clutShadow = s.clutShadow := by
  cases a <;> simp only [State.rasterStep] <;> (try split) <;> simp
@[simp] theorem State.rasterStep_pnlState (s : State) (a : RasterAct) : (s.rasterStep a).pnlState = s.pnlState := by
  cases a <;> simp only [State.rasterStep] <;> (try split) <;> simp
@[simp] theorem State.rasterStep_pnlCfg (s : State) (a : RasterAct) : (s.rasterStep a).pnlCfg = s.pnlCfg := by
  cases a <;> simp only [State.rasterStep] <;> (try split) <;> simp
@[simp] theorem State.rasterStep_pnlScratch (s : State) (a : RasterAct) : (s.rasterStep a).pnlScratch = s.pnlScratch := by
  cases a <;> simp only [State.rasterStep] <;> (try split) <;> simp
@[simp] theorem State.rasterStep_pnlOwner (s : State) (a : RasterAct) : (s.rasterStep a).pnlOwner = s.pnlOwner := by
  cases a <;> simp only [State.rasterStep] <;> (try split) <;> simp
@[simp] theorem State.rasterStep_cs (s : State) (a : RasterAct) : (s.rasterStep a).cs = s.cs := by
  cases a <;> simp only [State.rasterStep] <;> (try split) <;> simp
@[simp] theorem State.rasterStep_dcx (s : State) (a : RasterAct) : (s.rasterStep a).dcx = s.dcx := by
  cases a <;> simp only [State.rasterStep] <;> (try split) <;> simp
@[simp] theorem State.rasterStep_wire (s : State) (a : RasterAct) : (s.rasterStep a).wire = s.wire := by
  cases a <;> simp only [State.rasterStep] <;> (try split) <;> simp
@[simp] theorem State.rasterStep_threads (s : State) (a : RasterAct) : (s.rasterStep a).threads = s.threads := by
  cases a <;> simp only [State.rasterStep] <;> (try split) <;> simp
@[simp] theorem State.rasterStep_irq (s : State) (a : RasterAct) : (s.rasterStep a).irq = s.irq := by
  cases a <;> simp only [State.rasterStep] <;> (try split) <;> simp
@[simp] theorem State.rasterStep_irqResults (s : State) (a : RasterAct) : (s.rasterStep a).irqResults = s.irqResults := by
  cases a <;> simp only [State.rasterStep] <;> (try split) <;> simp
@[simp] theorem State.rasterStep_wakeEv (s : State) (a : RasterAct) : (s.rasterStep a).wakeEv = s.wakeEv := by
  cases a <;> simp only [State.rasterStep] <;> (try split) <;> simp
@[simp] theorem State.rasterStep_wakeEr (s : State) (a : RasterAct) : (s.rasterStep a).wakeEr = s.wakeEr := by
  cases a <;> simp only [State.rasterStep] <;> (try split) <;> simp
@[simp] theorem State.rasterStep_cbBodies (s : State) (a : RasterAct) : (s.rasterStep a).cbBodies = s.cbBodies := by
  cases a <;> simp only [State.rasterStep] <;> (try split) <;> simp
@[simp] theorem State.rasterStep_mem (s : State) (a : RasterAct) : (s.rasterStep a).mem = s.mem := by
  cases a <;> simp only [State.rasterStep] <;> (try split) <;> simp
@[simp] theorem State.rasterStep_draws (s : State) (a : RasterAct) : (s.rasterStep a).draws = s.draws := by
  cases a <;> simp only [State.rasterStep] <;> (try split) <;> simp
@[simp] theorem State.rasterStep_cur (s : State) (a : RasterAct) : (s.rasterStep a).cur = s.cur := by
  cases a <;> simp only [State.rasterStep] <;> (try split) <;> simp
@[simp] theorem State.rasterStep_sched (s : State) (a : RasterAct) : (s.rasterStep a).sched = s.sched := by
  cases a <;> simp only [State.rasterStep] <;> (try split) <;> simp

-- ==== the fields the simple updates write ====

@[simp] theorem State.takeLock_lockHolder (s : State) (t : Nat) : (s.takeLock t).lockHolder = some (.thread t) := rfl
@[simp] theorem State.releaseLock_lockHolder (s : State) (t : Nat) : (s.releaseLock t).lockHolder = none := rfl
@[simp] theorem State.letGo_lockHolder (s : State) : s.letGo.lockHolder = none := rfl
@[simp] theorem State.takeBack_lockHolder (s : State) (a : Agent) : (s.takeBack a).lockHolder = some a := rfl
@[simp] theorem State.wakeOf_setWake_irq (s : State) (v : Vec) (m : Option Msg) :
    (s.setWake (.irq v) m).wakeOf (.irq v) = m := by cases v <;> rfl
@[simp] theorem State.setWake_irq_threads (s : State) (v : Vec) (m : Option Msg) :
    (s.setWake (.irq v) m).threads = s.threads := by cases v <;> rfl
@[simp] theorem State.setWake_thread_wakeEv (s : State) (t : Nat) (m : Option Msg) :
    (s.setWake (.thread t) m).wakeEv = s.wakeEv := rfl
@[simp] theorem State.setWake_thread_wakeEr (s : State) (t : Nat) (m : Option Msg) :
    (s.setWake (.thread t) m).wakeEr = s.wakeEr := rfl
@[simp] theorem State.addEvent_events (s : State) (e : Event) : (s.addEvent e).events = s.events ++ [e] := rfl
@[simp] theorem State.addWire_wire (s : State) (d : Dir) (b : Byte) :
    (s.addWire d b).wire = s.wire ++ [⟨d, s.dcx, s.cs, b⟩] := rfl
@[simp] theorem State.enter_irq (s : State) (v : Vec) : (s.enter v).irq = .entry v :: s.irq := rfl
@[simp] theorem State.commit_active (s : State) : s.commit.active = s.shadow := rfl
@[simp] theorem State.commit_clutActive (s : State) : s.commit.clutActive = s.clutShadow := rfl
@[simp] theorem State.commit_srcr (s : State) : s.commit.srcr = 0 := rfl
@[simp] theorem State.commit_events (s : State) : s.commit.events = s.events ++ [.commit (s.srcr &&& 0x3)] := rfl
@[simp] theorem State.park_waiter (s : State) : s.park.waiter = some s.self := rfl
@[simp] theorem State.receive_draws (s : State) : s.receive.draws = s.draws + 1 := rfl
@[simp] theorem State.switchTo_cur (s : State) (t : Nat) : (s.switchTo t).cur = t := rfl

-- ==== the progress cell ====

@[simp] theorem Cell.push_step (c : Cell) (r : Word) : (c.push r).step = c.step + 1 := rfl
@[simp] theorem Cell.push_word (c : Cell) (r : Word) : (c.push r).word = c.word := rfl
@[simp] theorem Cell.push_ops (c : Cell) (r : Word) : (c.push r).ops = c.ops := rfl
@[simp] theorem Cell.push_log (c : Cell) (r : Word) : (c.push r).log = r :: c.log := rfl
@[simp] theorem Cell.push_wait (c : Cell) (r : Word) : (c.push r).wait = c.wait := rfl
@[simp] theorem Cell.jump_step (c : Cell) (d : Int) (r : Word) : (c.jump d r).step = (c.step + d).toNat := rfl
@[simp] theorem Cell.jump_word (c : Cell) (d : Int) (r : Word) : (c.jump d r).word = c.word := rfl
@[simp] theorem Cell.jump_ops (c : Cell) (d : Int) (r : Word) : (c.jump d r).ops = c.ops := rfl
@[simp] theorem Cell.jump_log (c : Cell) (d : Int) (r : Word) : (c.jump d r).log = r :: c.log := rfl
@[simp] theorem Cell.jump_wait (c : Cell) (d : Int) (r : Word) : (c.jump d r).wait = c.wait := rfl
@[simp] theorem Cell.skipYield_step (c : Cell) : c.skipYield.step = c.step + 2 := rfl
@[simp] theorem Cell.skipYield_word (c : Cell) : c.skipYield.word = c.word := rfl
@[simp] theorem Cell.skipYield_ops (c : Cell) : c.skipYield.ops = c.ops := rfl
@[simp] theorem Cell.skipYield_log (c : Cell) : c.skipYield.log = c.log := rfl
@[simp] theorem Cell.skipYield_wait (c : Cell) : c.skipYield.wait = c.wait := rfl
@[simp] theorem Cell.toRead_step (c : Cell) : c.toRead.step = c.step - 2 := rfl
@[simp] theorem Cell.toRead_word (c : Cell) : c.toRead.word = c.word := rfl
@[simp] theorem Cell.toRead_ops (c : Cell) : c.toRead.ops = c.ops := rfl
@[simp] theorem Cell.toRead_log (c : Cell) : c.toRead.log = c.log.drop 2 := rfl
@[simp] theorem Cell.toRead_wait (c : Cell) : c.toRead.wait = c.wait := rfl

end Sys2Proof.Machine
end

