-- ==== Sys2Proof/Laws/Command.lean ====
section
/-! SUPPORT. From the dispatch prologue to a command's core (R143, R154): what the running agent runs, and that the lock an
api form takes and gives back leaves no trace. -/

namespace Sys2Proof.Machine

variable {s : State} {i : Instr} {o : Operands} {core : Operands → Core}

/-- An issued command runs from its first micro-step. -/
theorem resume_issued {w : CmdWord} {p : Operands → Prog} (h : s.curCell = some ⟨w, o, 0, [], none⟩) :
    s.resume w p = run (p o) ⟨w, o, 0, [], none⟩ s := by
  simp only [State.resume, State.cellOf, h]
  cases p o <;> rfl

theorem command_issued {cl : CmdClass} (h : s.Issued i o) :
    command i cl core s = run (dispatch i cl (core o)) ⟨encode i, o, 0, [], none⟩ s :=
  resume_issued h.2

/-- The decode micro-step of a command that is legal in the build (R154). -/
theorem run_decodeStep {c : Cell} {k : Prog} (h : s.sched = []) (hw : i.wellFormed true s.par.useMutex = true) :
    run (decodeStep i k) c s = run k (c.push 0) s :=
  run_ok h (by simp [hw])

/-- The decode micro-step of a command that is illegal in the build (R146, R154). -/
theorem run_decodeStep_illegal {c : Cell} {k : Prog} (h : s.sched = []) (hw : i.wellFormed true s.par.useMutex = false) :
    run (decodeStep i k) c s = .next (s.raise c .illegalCommand (some (encode i))) :=
  run_raise h (by simp [hw])

/-- init and pure commands run their core after the decode (R154). -/
theorem command_init (h : s.Issued i o) (hw : i.wellFormed true s.par.useMutex = true) :
    command i .init core s = run (core o .done) ⟨encode i, o, 1, [0], none⟩ s := by
  rw [command_issued h, dispatch, run_decodeStep h.1 hw]; rfl

theorem command_pure (h : s.Issued i o) (hw : i.wellFormed true s.par.useMutex = true) :
    command i .pure core s = run (core o .done) ⟨encode i, o, 1, [0], none⟩ s := by
  rw [command_issued h, dispatch, run_decodeStep h.1 hw]; rfl

/-- Panel and mutex commands run their core, unlocked, after the context check (R154, R380). -/
theorem command_api (h : s.Issued i o) (hw : i.wellFormed true s.par.useMutex = true) (hc : s.ctx = .thread) :
    command i .api core s = run (core o .done) ⟨encode i, o, 2, [0, 0], none⟩ s := by
  rw [command_issued h, dispatch, run_decodeStep h.1 hw]
  simp only [ctxCheck]
  rw [run_check_pass h.1 (.inr (by simp [hc]))]; rfl

/-- The locked form of a class I command runs its core after the context check (R154). -/
theorem command_intSafe_locked (h : s.Issued i o) (hw : i.wellFormed true s.par.useMutex = true) (hc : s.MayRunI .locked) :
    command i (.intSafe .locked) core s = run (core o .done) ⟨encode i, o, 2, [0, 0], none⟩ s := by
  rw [command_issued h, dispatch, run_decodeStep h.1 hw]
  simp only [ctxCheck]
  rw [run_check_pass (p := fun s => s.ctx != .thread) h.1 hc]; rfl

/-- The locked form of a class S command runs its core after the context check (R154). -/
theorem command_schedLocked_locked (h : s.Issued i o) (hw : i.wellFormed true s.par.useMutex = true) (hc : s.MayRunS .locked) :
    command i (.schedLocked .locked) core s = run (core o .done) ⟨encode i, o, 2, [0, 0], none⟩ s := by
  rw [command_issued h, dispatch, run_decodeStep h.1 hw]
  simp only [ctxCheck]
  rw [run_check_pass h.1 (Or.imp_right (fun hb => by simp_all) hc)]; rfl

/-- An api form runs its core with the lock taken, and gives it back (R143). -/
theorem command_intSafe_api (h : s.Issued i o) (hw : i.wellFormed true s.par.useMutex = true) (hc : s.ctx = .thread)
    (hl : s.lockHolder = none) :
    command i (.intSafe .api) core s
      = run (core o fun v => unlockStep (.done v)) ⟨encode i, o, 3, [0, 0, 0], none⟩ (s.takeLock s.cur) := by
  rw [command_issued h, dispatch, run_decodeStep h.1 hw]
  simp only [ctxCheck]
  rw [run_check_pass h.1 (.inr (by simp [hc])), apiWrap, run_lockStep h.1 hc hl]; rfl

theorem command_schedLocked_api (h : s.Issued i o) (hw : i.wellFormed true s.par.useMutex = true) (hc : s.ctx = .thread)
    (hl : s.lockHolder = none) :
    command i (.schedLocked .api) core s
      = run (core o fun v => unlockStep (.done v)) ⟨encode i, o, 3, [0, 0, 0], none⟩ (s.takeLock s.cur) := by
  rw [command_issued h, dispatch, run_decodeStep h.1 hw]
  simp only [ctxCheck]
  rw [run_check_pass h.1 (.inr (by simp [hc])), apiWrap, run_lockStep h.1 hc hl]; rfl

/-- A context the class does not admit raises F_CONTEXT at micro-step 1, when the build has checks (R154, R455). -/
theorem run_ctxCheck_fail {c : Cell} {k : Prog} {p : Ctx → Bool} (h : s.sched = []) (hk : s.par.checks = true)
    (hp : p s.ctx = false) : run (ctxCheck p k) c s = .next (s.raise c .context none) :=
  run_check_fail h hk hp

/-- Taking the lock and giving it back leaves an unlocked thread's state as it was (R36, R143). -/
theorem modify_unlock_lock {l : List Thread} {t : Nat} (h : (l.getD t .idle).locked = false) :
    (l.modify t fun th => { th with locked := true }).modify t (fun th => { th with locked := false }) = l := by
  apply List.ext_getElem?
  intro n
  simp only [List.getElem?_modify]
  by_cases hn : t = n
  · subst hn
    simp only [if_true]
    cases hg : l[t]? with
    | none => rfl
    | some th =>
      simp only [List.getD_eq_getElem?_getD, hg, Option.getD_some] at h
      cases th; simp_all
  · simp [hn]

theorem releaseLock_takeLock (h : (s.threadAt s.cur).locked = false) (hl : s.lockHolder = none) :
    (s.takeLock s.cur).releaseLock s.cur = s := by
  have := modify_unlock_lock (l := s.threads) (t := s.cur) h
  cases s; simp_all [State.takeLock, State.releaseLock, State.setThread]

/-- What a core does whatever follows it: from a state with `P` it leaves `f`'s state and answers `v`. -/
def Core.Does (core : Core) (P : State → Prop) (f : State → State) (v : State → ResultVal) : Prop :=
  ∀ (ret : ResultVal → Prog) (c : Cell) (s : State), s.sched = [] → P s →
    ∃ c' : Cell, c'.word = c.word ∧ run (core ret) c s = run (ret (v s)) c' (f s)

/-- A class I command whose core does `f` and `v`, in either form (R142, R143): the core's effect, then the return. -/
theorem command_intSafe_does {P : State → Prop} {f : State → State} {v : State → ResultVal} {form : Form}
    (h : s.Issued i o) (hm : s.MayRunI form) (hw : i.wellFormed true s.par.useMutex = true)
    (hd : (core o).Does P f v) (hP : P s) (hPl : P (s.takeLock s.cur)) (hs : (f (s.takeLock s.cur)).sched = [])
    (hf : (f (s.takeLock s.cur)).releaseLock (f (s.takeLock s.cur)).cur = f ((s.takeLock s.cur).releaseLock s.cur))
    (hv : v (s.takeLock s.cur) = v s) :
    command i (.intSafe form) core s = .next ((f s).finish (encode i) (v s)) := by
  cases form with
  | api =>
    obtain ⟨hc, hl⟩ := hm
    have hu := (ctx_thread_iff.mp hc).2
    rw [command_intSafe_api h hw hc hl]
    obtain ⟨c', hcw, hr⟩ := hd (fun v => unlockStep (.done v)) ⟨encode i, o, 3, [0, 0, 0], none⟩ (s.takeLock s.cur) h.1 hPl
    rw [hr, run_unlockStep hs, run_done, hf, releaseLock_takeLock hu hl, hv]
    simp [Cell.push, hcw]
  | locked =>
    rw [command_intSafe_locked h hw hm]
    obtain ⟨c', hcw, hr⟩ := hd .done ⟨encode i, o, 2, [0, 0], none⟩ s h.1 hP
    rw [hr, run_done, hcw]

/-- A class S command whose core does `f` and `v`, in either form (R142, R143). -/
theorem command_schedLocked_does {P : State → Prop} {f : State → State} {v : State → ResultVal} {form : Form}
    (h : s.Issued i o) (hm : s.MayRunS form) (hw : i.wellFormed true s.par.useMutex = true)
    (hd : (core o).Does P f v) (hP : form = .locked → P s) (hPl : form = .api → P (s.takeLock s.cur))
    (hs : (f (s.takeLock s.cur)).sched = []) (hv : v (s.takeLock s.cur) = v s) :
    command i (.schedLocked form) core s
      = .next (match form with
        | .api => ((f (s.takeLock s.cur)).releaseLock (f (s.takeLock s.cur)).cur).finish (encode i) (v s)
        | .locked => (f s).finish (encode i) (v s)) := by
  cases form with
  | api =>
    obtain ⟨hc, hl⟩ := hm
    rw [command_schedLocked_api h hw hc hl]
    obtain ⟨c', hcw, hr⟩ :=
      hd (fun v => unlockStep (.done v)) ⟨encode i, o, 3, [0, 0, 0], none⟩ (s.takeLock s.cur) h.1 (hPl rfl)
    rw [hr, run_unlockStep hs, run_done, hv]
    simp [Cell.push, hcw]
  | locked =>
    rw [command_schedLocked_locked h hw hm]
    obtain ⟨c', hcw, hr⟩ := hd .done ⟨encode i, o, 2, [0, 0], none⟩ s h.1 (hP rfl)
    rw [hr, run_done, hcw]

end Sys2Proof.Machine
end

