-- ==== Sys2Proof/Laws/Keeps.lean ====
section
/-! SUPPORT. Properties of the state that a run keeps: it is enough that every micro-step of the pseudocode keeps them, and
the few updates that the machine makes round the micro-steps. -/

namespace Sys2Proof.Machine

/-- The micro-step, if it completes, leaves a state with `P`. -/
def Micro.Keeps (P : State → Prop) : Micro → Prop
  | .ok _ s => P s
  | .pause _ s => P s
  | .hold _ => True
  | .raise _ _ => True
  | .stuck _ => True

/-- What a polling loop does round its reads keeps `P`. -/
structure PollStable (P : State → Prop) : Prop where
  commit : ∀ s, P s → P s.commit
  letGo : ∀ s, P s → P s.letGo
  takeBack : ∀ s a, P s → P (s.takeBack a)

/-- Every micro-step of the pseudocode keeps `P`. -/
def Prog.Keeps (P : State → Prop) : Prog → Prop
  | .done _ => True
  | .micro m k => (∀ s, P s → (m s).Keeps P) ∧ ∀ r, (k r).Keeps P
  | .within _ _ k => ∀ r, (k r).Keeps P
  | .poll _ _ k => PollStable P ∧ k.Keeps P

/-- What the machine does round the micro-steps keeps `P`. The schedule gets shorter, and the raster agent moves only while
there is one. -/
structure Stable (P : State → Prop) : Prop where
  sched : ∀ s q, (s.sched = [] → q = []) → P s → P { s with sched := q }
  raster : ∀ s a, s.sched ≠ [] → P s → P (s.rasterStep a)
  suspend : ∀ s c, P s → P (s.suspend c)
  finish : ∀ s w v, P s → P (s.finish w v)
  raise : ∀ s c e i, P s → P (s.raise c e i)

/-- What a critical section does keeps `P`. -/
structure LockStable (P : State → Prop) : Prop where
  takeLock : ∀ s t, P s → P (s.takeLock t)
  releaseLock : ∀ s t, P s → P (s.releaseLock t)

variable {P : State → Prop}

/-- The state a boundary leaves, whoever is to move. -/
def Turn.state : Turn → State
  | .go s => s
  | .preempt s => s

/-- What a boundary can do: raster steps, and the schedule gets shorter. -/
theorem settle_keeps (hS : Stable P) (q : List Slot) (s : State) (hq : q ≠ [] → s.sched ≠ []) (hs : P s) :
    P (settle q s).state := by
  induction q generalizing s with
  | nil => exact hS.sched s [] (fun _ => rfl) hs
  | cons x r ih =>
    have hn : s.sched ≠ [] := hq (by simp)
    have hv : ∀ q : List Slot, s.sched = [] → q = [] := fun _ h => absurd h hn
    cases x with
    | go => exact hS.sched s r (hv r) hs
    | pause => exact hS.sched s r (hv r) hs
    | raster a => exact ih _ (fun _ => by simpa using hn) (hS.raster s a hn hs)
    | switch t =>
      simp only [settle]
      split
      · exact hS.sched s _ (hv _) hs
      · exact ih s (fun _ => hn) hs
    | deliver v =>
      simp only [settle]
      split
      · exact hS.sched s _ (hv _) hs
      · exact ih s (fun _ => hn) hs

theorem turn_go_keeps (hS : Stable P) {s s' : State} (hs : P s) (h : s.turn = .go s') : P s' := by
  have := settle_keeps hS s.sched s id hs; unfold State.turn at h; rw [h] at this; exact this

theorem turn_preempt_keeps (hS : Stable P) {s s' : State} (hs : P s) (h : s.turn = .preempt s') : P s' := by
  have := settle_keeps hS s.sched s id hs; unfold State.turn at h; rw [h] at this; exact this

/-- A continuation of a polling loop that keeps `P`. -/
def NextKeeps (P : State → Prop) (next : Cell → State → Out) : Prop := ∀ c s t, P s → next c s = .next t → P t

theorem pollRelease_keeps (hS : Stable P) (hP : PollStable P) {mask : Word} {next : Cell → State → Out} (hn : NextKeeps P next) :
    NextKeeps P (pollRelease mask next) := by
  intro c s t hs h
  unfold pollRelease at h
  split at h
  · rename_i s' hq
    cases h; exact hS.suspend _ _ (turn_preempt_keeps hS hs hq)
  · rename_i s' hq
    have h' := turn_go_keeps hS hs hq
    split at h
    · exact hn _ _ _ (hP.takeBack _ _ (hP.commit _ (hP.letGo _ h'))) h
    · cases h; exact hS.suspend _ _ (hP.letGo _ h')

theorem pollRead_keeps (hS : Stable P) (hP : PollStable P) {mask : Word} {next : Cell → State → Out} (hn : NextKeeps P next) :
    NextKeeps P (pollRead mask next) := by
  intro c s t hs h
  unfold pollRead at h
  split at h
  · rename_i s' hq
    cases h; exact hS.suspend _ _ (turn_preempt_keeps hS hs hq)
  · rename_i s' hq
    have h' := turn_go_keeps hS hs hq
    simp only at h
    split at h
    · exact pollRelease_keeps hS hP hn _ _ _ h' h
    · exact hn _ _ _ h' h

theorem pollRetake_keeps (hS : Stable P) (hP : PollStable P) {mask : Word} {next : Cell → State → Out} (hn : NextKeeps P next) :
    NextKeeps P (pollRetake mask next) := by
  intro c s t hs h
  unfold pollRetake at h
  split at h
  · rename_i s' hq
    cases h; exact hS.suspend _ _ (turn_preempt_keeps hS hs hq)
  · rename_i s' hq
    have h' := turn_go_keeps hS hs hq
    split at h
    · exact pollRead_keeps hS hP hn _ _ _ (hP.takeBack _ _ h') h
    · cases h; exact hS.suspend _ _ h'

/-- A run whose micro-steps keep `P` keeps `P`. -/
theorem run_keeps (hS : Stable P) {p : Prog} (hp : p.Keeps P) : NextKeeps P (run p) := by
  induction p with
  | done v =>
    intro c s t hs h
    cases h; exact hS.finish _ _ _ hs
  | micro m k ih =>
    intro c s t hs h
    simp only [run] at h
    split at h
    · rename_i s' hq
      cases h; exact hS.suspend _ _ (turn_preempt_keeps hS hs hq)
    · rename_i s' hq
      have h' := turn_go_keeps hS hs hq
      have hm := hp.1 s' h'
      split at h
      · rename_i r s'' he
        rw [he] at hm; exact ih r (hp.2 r) _ _ _ hm h
      · rename_i r s'' he
        rw [he] at hm; cases h; exact hS.suspend _ _ hm
      · cases h; exact hS.suspend _ _ h'
      · cases h; exact hS.raise _ _ _ _ h'
      · cases h
  | within g d k ih =>
    intro c s t hs h
    exact ih (g s) (hp (g s)) _ _ _ hs h
  | poll at_ mask k ih =>
    have hn : NextKeeps P (fun c' s' => run k c' s') := ih hp.2
    intro c s t hs h
    cases at_ with
    | read => exact pollRead_keeps hS hp.1 hn _ _ _ hs h
    | release => exact pollRelease_keeps hS hp.1 hn _ _ _ hs h
    | retake => exact pollRetake_keeps hS hp.1 hn _ _ _ hs h

/-- What is left of a pseudocode keeps what the whole keeps. -/
theorem after_keeps {p : Prog} (hp : p.Keeps P) (rs : List Word) : (p.after rs).Keeps P := by
  induction p generalizing rs with
  | done v => cases rs <;> exact hp
  | micro m k ih =>
    cases rs with
    | nil => exact hp
    | cons r rs => exact ih r (hp.2 r) rs
  | within g d k ih =>
    cases rs with
    | nil => exact hp
    | cons r rs => exact ih r (hp r) rs
  | poll at_ mask k ih =>
    cases rs with
    | nil => exact hp
    | cons r rs =>
      simp only [Prog.after]
      split
      · cases rs <;> exact hp
      · exact ih hp.2 rs

theorem resume_keeps (hS : Stable P) {s t : State} {w : CmdWord} {p : Operands → Prog} (hp : ∀ o, (p o).Keeps P) (hs : P s)
    (h : s.resume w p = .next t) : P t :=
  run_keeps hS (after_keeps (hp _) _) _ _ _ hs h

-- ==== the primitives ====

theorem keeps_act {f : State → State} {k : Prog} (hf : ∀ s, P s → P (f s)) (hk : k.Keeps P) : (act f k).Keeps P :=
  ⟨hf, fun _ => hk⟩

theorem keeps_rd {r : Reg} {k : Word → Prog} (hf : ∀ s, P s → P (s.afterRead r)) (hk : ∀ v, (k v).Keeps P) :
    (rd r k).Keeps P :=
  ⟨hf, hk⟩

theorem keeps_wr {r : Reg} {v : Word} {k : Prog} (hf : ∀ s, P s → P (s.regWrite r v)) (hk : k.Keeps P) : (wr r v k).Keeps P :=
  ⟨hf, fun _ => hk⟩

theorem keeps_check {p : State → Bool} {code : FaultCode} {k : Prog} (hk : k.Keeps P) : (check p code k).Keeps P :=
  ⟨fun s hs => by show Micro.Keeps P (if _ then _ else _); split <;> trivial, fun _ => hk⟩

theorem keeps_checkB {b : Bool} {code : FaultCode} {k : Prog} (hk : k.Keeps P) : (checkB b code k).Keeps P := keeps_check hk

theorem keeps_crashCheck {p : State → Bool} {k : Prog} (hk : k.Keeps P) : (crashCheck p k).Keeps P :=
  ⟨fun s hs => by show Micro.Keeps P (if _ then _ else _); split <;> trivial, fun _ => hk⟩

/-- A micro-step that only reads state. -/
theorem keeps_read {g : State → Word} {k : Word → Prog} (hk : ∀ v, (k v).Keeps P) :
    (Prog.micro (fun s => .ok (g s) s) k).Keeps P :=
  ⟨fun _ hs => hs, hk⟩

theorem keeps_look {g : State → Word} {k : Word → Prog} (hk : ∀ v, (k v).Keeps P) : (look g k).Keeps P := hk

theorem keeps_jump {d : Int} {k : Prog} (hk : k.Keeps P) : (jump d k).Keeps P := fun _ => hk

theorem keeps_memRd {base : Word} {off n : Nat} {k : Word → Prog} (hk : ∀ v, (k v).Keeps P) : (memRd base off n k).Keeps P :=
  ⟨fun s hs => by unfold readField; split <;> trivial, hk⟩

theorem keeps_cfgRd {off n : Nat} {k : Word → Prog} (hk : ∀ v, (k v).Keeps P) : (cfgRd off n k).Keeps P :=
  ⟨fun s hs => by
    show Micro.Keeps P (if _ then _ else readField _ _ _ _)
    unfold readField
    split
    · trivial
    · split <;> trivial, hk⟩

theorem keeps_memWr {base v : Word} {off n : Nat} {k : Prog}
    (hf : ∀ s, P s → P { s with mem := s.mem.writeLe (base + BitVec.ofNat 32 off) n v }) (hk : k.Keeps P) :
    (memWr base off n v k).Keeps P :=
  ⟨fun s hs => by show Micro.Keeps P (if _ then _ else _); split <;> first | trivial | exact hf s hs, fun _ => hk⟩

theorem keeps_byteRd {a : Word} {k : Byte → Prog} (hk : ∀ b, (k b).Keeps P) : (byteRd a k).Keeps P :=
  ⟨fun _ hs => hs, fun _ => hk _⟩

theorem keeps_holdUntil {p : State → Bool} {w : Wait} {f : State → State} {k : Prog} (hf : ∀ s, P s → P (f s))
    (hk : k.Keeps P) : (holdUntil p w f k).Keeps P :=
  ⟨fun s hs => by show Micro.Keeps P (if _ then _ else _); split <;> first | trivial | exact hf s hs, fun _ => hk⟩

theorem keeps_shim {k : Prog} (hk : k.Keeps P) : (shim k).Keeps P := keeps_act (fun _ hs => hs) hk

theorem keeps_sleep (hP : PollStable P) {k : Prog} (hk : k.Keeps P) : (sleep k).Keeps P :=
  keeps_act (fun s hs => hP.letGo s hs) (keeps_holdUntil (fun s hs => hP.takeBack s _ hs) hk)

theorem keeps_lockStep (hL : LockStable P) {k : Prog} (hk : k.Keeps P) : (lockStep k).Keeps P :=
  ⟨fun s hs => by
    show Micro.Keeps P (match s.ctx with
      | .thread => if s.lockHolder.isNone then .ok 0 (s.takeLock s.cur) else .hold .lock
      | .locked => .stuck .lockNotAdmitted
      | .isr => .stuck .lockNotAdmitted)
    split
    · split
      · exact hL.takeLock s _ hs
      · trivial
    · trivial
    · trivial, fun _ => hk⟩

theorem keeps_unlockStep (hL : LockStable P) {k : Prog} (hk : k.Keeps P) : (unlockStep k).Keeps P :=
  keeps_act (fun s hs => hL.releaseLock s _ hs) hk

-- ==== commands ====

/-- A core keeps `P` if what follows it does. -/
def Core.Keeps (P : State → Prop) (core : Core) : Prop := ∀ ret, (∀ v, (ret v).Keeps P) → (core ret).Keeps P

theorem keeps_apiWrap (hL : LockStable P) {core : Core} (hc : core.Keeps P) : (apiWrap core).Keeps P :=
  keeps_lockStep hL (hc _ fun _ => keeps_unlockStep hL trivial)

theorem keeps_dispatch {i : Instr} {cl : CmdClass} {core : Core} (hL : cl.takesLock = true → LockStable P) (hc : core.Keeps P) :
    (dispatch i cl core).Keeps P := by
  have hd : (core Prog.done).Keeps P := hc _ fun _ => trivial
  refine ⟨fun s hs => ?_, fun _ => ?_⟩
  · show Micro.Keeps P (if _ then _ else _)
    split <;> trivial
  · cases cl with
    | init => exact hd
    | pure => exact hd
    | api => exact keeps_check hd
    | schedLocked c => cases c with
      | api => exact keeps_check (keeps_apiWrap (hL rfl) hc)
      | locked => exact keeps_check hd
    | intSafe c => cases c with
      | api => exact keeps_check (keeps_apiWrap (hL rfl) hc)
      | locked => exact keeps_check hd

/-- A command whose core keeps `P` keeps `P`, whatever the schedule and wherever it goes on from. -/
theorem command_keeps (hS : Stable P) {i : Instr} {cl : CmdClass} {core : Operands → Core}
    (hL : cl.takesLock = true → LockStable P) (hc : ∀ o, (core o).Keeps P) {s t : State} (hs : P s)
    (h : command i cl core s = .next t) : P t :=
  resume_keeps hS (fun o => keeps_dispatch hL (hc o)) hs h

theorem keeps_raiseIllegal {w : CmdWord} : (raiseIllegal w).Keeps P := ⟨fun _ _ => trivial, fun _ => trivial⟩

theorem handler_keeps (hS : Stable P) {i : Instr} {v : Vec} {body : Prog} (hb : body.Keeps P) {s t : State} (hs : P s)
    (h : handler i v body s = .next t) : P t := by
  unfold handler at h
  split at h
  · exact resume_keeps hS (fun _ => hb) hs h
  · exact resume_keeps hS (fun _ => keeps_raiseIllegal) hs h

-- ==== the step ====

/-- What the scheduling of agents does keeps `P`. A delivery is one that the rules enable (R458). -/
structure SchedStable (P : State → Prop) : Prop where
  commit : ∀ s, P s → P s.commit
  enter : ∀ s v, s.deliverable v = true → P s → P (s.enter v)
  switchTo : ∀ s t, P s → P (s.switchTo t)
  setThread : ∀ s t f, P s → P (s.setThread t f)
  body : ∀ (s : State) a rest more c, s.irq = a :: rest → P s → P { s with irq := { a with body := more, bodyCell := c } :: rest }

theorem execWord_keeps (hS : Stable P) (hE : ∀ i s t, P s → exec i s = .next t → P t) {s t : State} {w : CmdWord} (hs : P s)
    (h : s.execWord w = .next t) : P t := by
  unfold State.execWord at h
  split at h
  · exact hE _ _ _ hs h
  · exact resume_keeps hS (fun _ => keeps_raiseIllegal) hs h

theorem runThread_keeps (hS : Stable P) (hL : LockStable P) (hT : SchedStable P) (hE : ∀ i s t, P s → exec i s = .next t → P t) {s t : State}
    (hs : P s) (h : s.runThread = .next t) : P t := by
  unfold State.runThread at h
  split at h
  · exact execWord_keeps hS hE hs h
  · split at h
    · cases h
    · exact execWord_keeps hS hE (hT.setThread _ _ _ hs) h
    · cases h; exact hS.sched _ _ (fun e => by simp at e; simp [e]) (hL.takeLock _ _ (hT.setThread _ _ _ hs))
    · cases h; exact hS.sched _ _ (fun e => by simp at e; simp [e]) (hL.releaseLock _ _ (hT.setThread _ _ _ hs))

theorem runHandler_keeps (hS : Stable P) (hT : SchedStable P) (hE : ∀ i s t, P s → exec i s = .next t → P t) {s t : State}
    {a : Activation} {rest : List Activation} (hi : s.irq = a :: rest) (hs : P s) (h : s.runHandler a rest = .next t) : P t := by
  unfold State.runHandler at h
  split at h
  · exact execWord_keeps hS hE hs h
  · split at h
    · exact execWord_keeps hS hE (hT.body _ _ _ _ _ hi hs) h
    · exact execWord_keeps hS hE hs h

/-- A step keeps `P` if every instruction's meaning does, and what the machine does round them does. -/
theorem step_keeps (hS : Stable P) (hL : LockStable P) (hT : SchedStable P) (hE : ∀ i s t, P s → exec i s = .next t → P t) {s t : State}
    (hs : P s) (h : step s = .next t) : P t := by
  unfold step State.advance at h
  split at h
  · cases h
  · split at h
    · unfold State.runDefault at h
      split at h
      · rename_i hd; cases h; exact hT.enter _ _ hd hs
      · split at h
        · rename_i hd; cases h; exact hT.enter _ _ hd hs
        · split at h
          · rename_i a rest hi
            split at h
            · exact runHandler_keeps hS hT hE hi hs h
            · split at h
              · cases h; exact hT.commit _ hs
              · cases h
          · split at h
            · exact runThread_keeps hS hL hT hE (hT.switchTo _ _ hs) h
            · split at h
              · exact runThread_keeps hS hL hT hE (hT.switchTo _ _ hs) h
              · split at h
                · cases h; exact hT.commit _ hs
                · split at h <;> cases h
    · split at h
      · unfold State.runAgent at h
        split at h
        · rename_i a rest hi; exact runHandler_keeps hS hT hE hi hs h
        · exact runThread_keeps hS hL hT hE hs h
      · rename_i hq _; cases h; exact hS.sched _ _ (fun e => by simp [hq] at e) hs
    · rename_i hq; cases h
      exact hS.sched _ _ (fun e => by simp [hq] at e) hs
    · rename_i hq; cases h
      exact hS.sched _ _ (fun e => by simp [hq] at e) (hS.raster _ _ (by simp [hq]) hs)
    · rename_i hq; cases h
      refine hS.sched _ _ (fun e => by split at e <;> simp [hq] at e) ?_
      split
      · exact hT.switchTo _ _ hs
      · exact hs
    · rename_i hq; cases h
      refine hS.sched _ _ (fun e => by split at e <;> simp [hq] at e) ?_
      split
      · rename_i hd; exact hT.enter _ _ hd hs
      · exact hs

end Sys2Proof.Machine
end

