-- ==== Sys2Proof/Laws/Memory.lean ====
section
/-! SUPPORT. Host memory: a byte written is read back, every other byte is left alone, and every operation keeps the
canonical form. -/

namespace Sys2Proof.Machine

theorem Mem.wfFrom_mono {lo lo' : Nat} {m : Mem} (h : lo' ≤ lo) (hm : Mem.wfFrom lo m = true) : Mem.wfFrom lo' m = true := by
  cases m with
  | nil => rfl
  | cons p rest =>
    obtain ⟨k, b⟩ := p
    simp only [Mem.wfFrom, Bool.and_eq_true, decide_eq_true_eq] at hm ⊢
    exact ⟨⟨⟨by omega, hm.1.1.2⟩, hm.1.2⟩, hm.2⟩

theorem Mem.set_wfFrom {m : Mem} {lo a : Nat} {b : Byte} (hm : Mem.wfFrom lo m = true) (hlo : lo ≤ a) (ha : a < 4294967296) :
    Mem.wfFrom lo (m.set a b) = true := by
  induction m generalizing lo with
  | nil =>
    unfold Mem.set
    split
    · rfl
    · simp [Mem.wfFrom, *]
  | cons p rest ih =>
    obtain ⟨k, c⟩ := p
    simp only [Mem.wfFrom, Bool.and_eq_true, decide_eq_true_eq, bne_iff_ne, ne_eq] at hm
    obtain ⟨⟨⟨h1, h2⟩, h3⟩, h4⟩ := hm
    unfold Mem.set
    split
    · split
      · simp [Mem.wfFrom, *]
      · simp only [Mem.wfFrom, Bool.and_eq_true, decide_eq_true_eq, bne_iff_ne, ne_eq]
        exact ⟨⟨⟨hlo, ha⟩, by assumption⟩, ⟨⟨by omega, h2⟩, h3⟩, h4⟩
    · split
      · subst a
        split
        · exact Mem.wfFrom_mono (by omega) h4
        · simp [Mem.wfFrom, *]
      · simp only [Mem.wfFrom, Bool.and_eq_true, decide_eq_true_eq, bne_iff_ne, ne_eq]
        exact ⟨⟨⟨h1, h2⟩, h3⟩, ih h4 (by omega)⟩

/-- A byte write keeps the canonical form. -/
theorem Mem.set_wf {m : Mem} {a : Word} {b : Byte} (hm : m.wf = true) : (m.set a.toNat b).wf = true :=
  Mem.set_wfFrom hm (Nat.zero_le _) a.isLt

/-- A field write keeps the canonical form. -/
theorem Mem.writeLe_wf {m : Mem} {a : Word} {n : Nat} {v : Word} (hm : m.wf = true) : (m.writeLe a n v).wf = true := by
  induction n generalizing m a v with
  | zero => exact hm
  | succ n ih => exact ih (Mem.set_wf hm)

/-- The empty memory of the reset state is canonical. -/
theorem reset_mem_wf : State.reset.mem.wf = true := rfl

theorem Mem.get_of_lt {m : Mem} {lo a : Nat} (hm : Mem.wfFrom lo m = true) (h : a < lo) : m.get a = Mem.unlisted := by
  induction m generalizing lo with
  | nil => rfl
  | cons p rest ih =>
    obtain ⟨k, c⟩ := p
    simp only [Mem.wfFrom, Bool.and_eq_true, decide_eq_true_eq] at hm
    unfold Mem.get
    rw [if_neg (by omega)]
    exact ih hm.2 (by omega)

theorem Mem.get_set_other (m : Mem) {a a' : Nat} (b : Byte) (h : a ≠ a') : (m.set a' b).get a = m.get a := by
  induction m with
  | nil =>
    unfold Mem.set
    split
    · rfl
    · simp [Mem.get, Ne.symm h]
  | cons p rest ih =>
    obtain ⟨k, c⟩ := p
    unfold Mem.set
    split
    · split
      · rfl
      · simp [Mem.get, Ne.symm h]
    · split
      · subst k
        split
        · simp [Mem.get, Ne.symm h]
        · simp [Mem.get, Ne.symm h]
      · simp only [Mem.get, ih]

theorem Mem.get_set_same {m : Mem} {lo a : Nat} {b : Byte} (hm : Mem.wfFrom lo m = true) : (m.set a b).get a = b := by
  induction m generalizing lo with
  | nil =>
    unfold Mem.set
    split
    · rename_i h; subst h; rfl
    · simp [Mem.get]
  | cons p rest ih =>
    obtain ⟨k, c⟩ := p
    simp only [Mem.wfFrom, Bool.and_eq_true, decide_eq_true_eq] at hm
    unfold Mem.set
    split
    · split
      · rename_i h; subst h
        have : Mem.wfFrom k ((k, c) :: rest) = true := by simp [Mem.wfFrom, hm]
        exact Mem.get_of_lt this (by assumption)
      · simp [Mem.get]
    · split
      · split
        · rename_i h; subst h
          exact Mem.get_of_lt hm.2 (by omega)
        · simp [Mem.get]
      · simp only [Mem.get]
        rw [if_neg (by omega)]
        exact ih hm.2

/-- A byte written is read back. -/
theorem Mem.byteAt_set_same {m : Mem} {a : Word} {b : Byte} (hm : m.wf = true) : Mem.byteAt (m.set a.toNat b) a = b :=
  Mem.get_set_same hm

/-- Every other byte is left alone. -/
theorem Mem.byteAt_set_other (m : Mem) {a a' : Word} (b : Byte) (h : a ≠ a') :
    Mem.byteAt (m.set a'.toNat b) a = m.byteAt a :=
  Mem.get_set_other m b fun e => h (BitVec.eq_of_toNat_eq e)

/-- A field write leaves every byte outside the field alone. -/
theorem Mem.byteAt_writeLe_other {m : Mem} {base a v : Word} {n : Nat} (h : inBytes base n a = false) :
    Mem.byteAt (m.writeLe base n v) a = m.byteAt a := by
  induction n generalizing m base v with
  | zero => rfl
  | succ n ih =>
    simp only [inBytes, decide_eq_false_iff_not, Nat.not_lt] at h
    have hne : a ≠ base := by
      intro e; subst e; simp at h
    have hstep : n ≤ (a - (base + 1)).toNat := by
      have h0 : a - base ≠ 0 := fun e => hne (by bv_omega)
      bv_omega
    simp only [Mem.writeLe]
    rw [ih (by simp only [inBytes, decide_eq_false_iff_not, Nat.not_lt]; exact hstep)]
    exact Mem.byteAt_set_other m _ hne

end Sys2Proof.Machine
end

