-- ==== Sys2Proof/Laws/PerInstr.lean ====
section
/-! SUPPORT. One lemma per instruction: its word leaves the reserved bits 15:10 of CMD16 zero (R140, R146 (a)). -/

namespace Sys2Proof.Laws.ReservedBitsClear

/-- The reserved field of the instruction's word is zero (R140). -/
def Statement (i : Instr) : Prop := reservedField (encode i) = 0

theorem init : Statement (.init) := by
  unfold Statement
  decide

theorem start (c : Form) : Statement (.start c) := by
  unfold Statement
  cases c <;> decide

theorem stop (c : Form) : Statement (.stop c) := by
  unfold Statement
  cases c <;> decide

theorem isReloading (c : Form) : Statement (.isReloading c) := by
  unfold Statement
  cases c <;> decide

theorem startReload (c : Form) : Statement (.startReload c) := by
  unfold Statement
  cases c <;> decide

theorem reloadWait (c : Form) : Statement (.reloadWait c) := by
  unfold Statement
  cases c <;> decide

theorem acquireBus : Statement (.acquireBus) := by
  unfold Statement
  decide

theorem releaseBus : Statement (.releaseBus) := by
  unfold Statement
  decide

theorem eventIrq : Statement (.eventIrq) := by
  unfold Statement
  decide

theorem errorIrq : Statement (.errorIrq) := by
  unfold Statement
  decide

theorem getGlobalFlags (c : Form) : Statement (.getGlobalFlags c) := by
  unfold Statement
  cases c <;> decide

theorem setGlobalFlags (c : Form) : Statement (.setGlobalFlags c) := by
  unfold Statement
  cases c <;> decide

theorem getClearColor (c : Form) : Statement (.getClearColor c) := by
  unfold Statement
  cases c <;> decide

theorem setClearColor (c : Form) : Statement (.setClearColor c) := by
  unfold Statement
  cases c <;> decide

theorem getLinePos (c : Form) : Statement (.getLinePos c) := by
  unfold Statement
  cases c <;> decide

theorem setLinePos (c : Form) : Statement (.setLinePos c) := by
  unfold Statement
  cases c <;> decide

theorem getCurrentPos (c : Form) : Statement (.getCurrentPos c) := by
  unfold Statement
  cases c <;> decide

theorem getEnableFlags (l : Layer) (c : Form) : Statement (.getEnableFlags l c) := by
  unfold Statement
  cases l <;> cases c <;> decide

theorem setEnableFlags (l : Layer) (c : Form) : Statement (.setEnableFlags l c) := by
  unfold Statement
  cases l <;> cases c <;> decide

theorem isLayerEnabled (l : Layer) (c : Form) : Statement (.isLayerEnabled l c) := by
  unfold Statement
  cases l <;> cases c <;> decide

theorem enableLayer (l : Layer) (c : Form) : Statement (.enableLayer l c) := by
  unfold Statement
  cases l <;> cases c <;> decide

theorem disableLayer (l : Layer) (c : Form) : Statement (.disableLayer l c) := by
  unfold Statement
  cases l <;> cases c <;> decide

theorem getPixelFormat (l : Layer) (c : Form) : Statement (.getPixelFormat l c) := by
  unfold Statement
  cases l <;> cases c <;> decide

theorem setPixelFormat (l : Layer) (c : Form) : Statement (.setPixelFormat l c) := by
  unfold Statement
  cases l <;> cases c <;> decide

theorem getKeyColor (l : Layer) (c : Form) : Statement (.getKeyColor l c) := by
  unfold Statement
  cases l <;> cases c <;> decide

theorem setKeyColor (l : Layer) (c : Form) : Statement (.setKeyColor l c) := by
  unfold Statement
  cases l <;> cases c <;> decide

theorem isKeyingEnabled (l : Layer) (c : Form) : Statement (.isKeyingEnabled l c) := by
  unfold Statement
  cases l <;> cases c <;> decide

theorem enableKeying (l : Layer) (c : Form) : Statement (.enableKeying l c) := by
  unfold Statement
  cases l <;> cases c <;> decide

theorem disableKeying (l : Layer) (c : Form) : Statement (.disableKeying l c) := by
  unfold Statement
  cases l <;> cases c <;> decide

theorem getConstAlpha (l : Layer) (c : Form) : Statement (.getConstAlpha l c) := by
  unfold Statement
  cases l <;> cases c <;> decide

theorem setConstAlpha (l : Layer) (c : Form) : Statement (.setConstAlpha l c) := by
  unfold Statement
  cases l <;> cases c <;> decide

theorem getDefaultColor (l : Layer) (c : Form) : Statement (.getDefaultColor l c) := by
  unfold Statement
  cases l <;> cases c <;> decide

theorem setDefaultColor (l : Layer) (c : Form) : Statement (.setDefaultColor l c) := by
  unfold Statement
  cases l <;> cases c <;> decide

theorem getBlending (l : Layer) (c : Form) : Statement (.getBlending l c) := by
  unfold Statement
  cases l <;> cases c <;> decide

theorem setBlending (l : Layer) (c : Form) : Statement (.setBlending l c) := by
  unfold Statement
  cases l <;> cases c <;> decide

theorem setPaletteEntry (l : Layer) (c : Form) : Statement (.setPaletteEntry l c) := by
  unfold Statement
  cases l <;> cases c <;> decide

theorem setPalette (l : Layer) (c : Form) : Statement (.setPalette l c) := by
  unfold Statement
  cases l <;> cases c <;> decide

theorem isPaletteEnabled (l : Layer) (c : Form) : Statement (.isPaletteEnabled l c) := by
  unfold Statement
  cases l <;> cases c <;> decide

theorem enablePalette (l : Layer) (c : Form) : Statement (.enablePalette l c) := by
  unfold Statement
  cases l <;> cases c <;> decide

theorem disablePalette (l : Layer) (c : Form) : Statement (.disablePalette l c) := by
  unfold Statement
  cases l <;> cases c <;> decide

theorem getWindow (l : Layer) (c : Form) : Statement (.getWindow l c) := by
  unfold Statement
  cases l <;> cases c <;> decide

theorem setWindow (l : Layer) (c : Form) : Statement (.setWindow l c) := by
  unfold Statement
  cases l <;> cases c <;> decide

theorem setInvalidWindow (l : Layer) (c : Form) : Statement (.setInvalidWindow l c) := by
  unfold Statement
  cases l <;> cases c <;> decide

theorem getFrame (l : Layer) (c : Form) : Statement (.getFrame l c) := by
  unfold Statement
  cases l <;> cases c <;> decide

theorem setFrame (l : Layer) (c : Form) : Statement (.setFrame l c) := by
  unfold Statement
  cases l <;> cases c <;> decide

theorem getFrameAddress (l : Layer) (c : Form) : Statement (.getFrameAddress l c) := by
  unfold Statement
  cases l <;> cases c <;> decide

theorem setFrameAddress (l : Layer) (c : Form) : Statement (.setFrameAddress l c) := by
  unfold Statement
  cases l <;> cases c <;> decide

theorem getLayer (l : Layer) (c : Form) : Statement (.getLayer l c) := by
  unfold Statement
  cases l <;> cases c <;> decide

theorem setLayer (l : Layer) (c : Form) : Statement (.setLayer l c) := by
  unfold Statement
  cases l <;> cases c <;> decide

theorem bpp : Statement (.bpp) := by
  unfold Statement
  decide

theorem toArgb8888 : Statement (.toArgb8888) := by
  unfold Statement
  decide

theorem fromArgb8888 : Statement (.fromArgb8888) := by
  unfold Statement
  decide

theorem pnlObjectInit : Statement (.pnlObjectInit) := by
  unfold Statement
  decide

theorem pnlStart : Statement (.pnlStart) := by
  unfold Statement
  decide

theorem pnlStop : Statement (.pnlStop) := by
  unfold Statement
  decide

theorem pnlAcquireBus : Statement (.pnlAcquireBus) := by
  unfold Statement
  decide

theorem pnlReleaseBus : Statement (.pnlReleaseBus) := by
  unfold Statement
  decide

theorem pnlSelect : Statement (.pnlSelect) := by
  unfold Statement
  decide

theorem pnlUnselect : Statement (.pnlUnselect) := by
  unfold Statement
  decide

theorem pnlWriteCommand : Statement (.pnlWriteCommand) := by
  unfold Statement
  decide

theorem pnlWriteByte : Statement (.pnlWriteByte) := by
  unfold Statement
  decide

theorem pnlReadByte : Statement (.pnlReadByte) := by
  unfold Statement
  decide

theorem pnlWriteChunk : Statement (.pnlWriteChunk) := by
  unfold Statement
  decide

theorem pnlReadChunk : Statement (.pnlReadChunk) := by
  unfold Statement
  decide

end Sys2Proof.Laws.ReservedBitsClear
end

