-- ==== Sys2Proof/Laws/Regs.lean ====
section
/-! SUPPORT. What each register write stores (R15, R40 to R64): one equation per register. -/

namespace Sys2Proof.Machine

variable (s : State) (l : Layer) (v : Word)

-- ==== a layer's shadow block ====

@[simp] theorem State.putLayer_par (r : LayerRegs) : (s.putLayer l r).par = s.par := rfl
@[simp] theorem State.putLayer_drvState (r : LayerRegs) : (s.putLayer l r).drvState = s.drvState := rfl
@[simp] theorem State.putLayer_activeWindow (r : LayerRegs) : (s.putLayer l r).activeWindow = s.activeWindow := rfl
@[simp] theorem State.putLayer_waiter (r : LayerRegs) : (s.putLayer l r).waiter = s.waiter := rfl
@[simp] theorem State.putLayer_cfg (r : LayerRegs) : (s.putLayer l r).cfg = s.cfg := rfl
@[simp] theorem State.putLayer_lockHolder (r : LayerRegs) : (s.putLayer l r).lockHolder = s.lockHolder := rfl
@[simp] theorem State.putLayer_ltdcOwner (r : LayerRegs) : (s.putLayer l r).ltdcOwner = s.ltdcOwner := rfl
@[simp] theorem State.putLayer_fault (r : LayerRegs) : (s.putLayer l r).fault = s.fault := rfl
@[simp] theorem State.putLayer_nvicEv (r : LayerRegs) : (s.putLayer l r).nvicEv = s.nvicEv := rfl
@[simp] theorem State.putLayer_nvicEr (r : LayerRegs) : (s.putLayer l r).nvicEr = s.nvicEr := rfl
@[simp] theorem State.putLayer_active (r : LayerRegs) : (s.putLayer l r).active = s.active := rfl
@[simp] theorem State.putLayer_srcr (r : LayerRegs) : (s.putLayer l r).srcr = s.srcr := rfl
@[simp] theorem State.putLayer_ier (r : LayerRegs) : (s.putLayer l r).ier = s.ier := rfl
@[simp] theorem State.putLayer_isr (r : LayerRegs) : (s.putLayer l r).isr = s.isr := rfl
@[simp] theorem State.putLayer_lipcr (r : LayerRegs) : (s.putLayer l r).lipcr = s.lipcr := rfl
@[simp] theorem State.putLayer_clutShadow (r : LayerRegs) : (s.putLayer l r).clutShadow = s.clutShadow := rfl
@[simp] theorem State.putLayer_clutActive (r : LayerRegs) : (s.putLayer l r).clutActive = s.clutActive := rfl
@[simp] theorem State.putLayer_pnlState (r : LayerRegs) : (s.putLayer l r).pnlState = s.pnlState := rfl
@[simp] theorem State.putLayer_pnlCfg (r : LayerRegs) : (s.putLayer l r).pnlCfg = s.pnlCfg := rfl
@[simp] theorem State.putLayer_pnlScratch (r : LayerRegs) : (s.putLayer l r).pnlScratch = s.pnlScratch := rfl
@[simp] theorem State.putLayer_pnlOwner (r : LayerRegs) : (s.putLayer l r).pnlOwner = s.pnlOwner := rfl
@[simp] theorem State.putLayer_cs (r : LayerRegs) : (s.putLayer l r).cs = s.cs := rfl
@[simp] theorem State.putLayer_dcx (r : LayerRegs) : (s.putLayer l r).dcx = s.dcx := rfl
@[simp] theorem State.putLayer_wire (r : LayerRegs) : (s.putLayer l r).wire = s.wire := rfl
@[simp] theorem State.putLayer_events (r : LayerRegs) : (s.putLayer l r).events = s.events := rfl
@[simp] theorem State.putLayer_threads (r : LayerRegs) : (s.putLayer l r).threads = s.threads := rfl
@[simp] theorem State.putLayer_irq (r : LayerRegs) : (s.putLayer l r).irq = s.irq := rfl
@[simp] theorem State.putLayer_irqResults (r : LayerRegs) : (s.putLayer l r).irqResults = s.irqResults := rfl
@[simp] theorem State.putLayer_wakeEv (r : LayerRegs) : (s.putLayer l r).wakeEv = s.wakeEv := rfl
@[simp] theorem State.putLayer_wakeEr (r : LayerRegs) : (s.putLayer l r).wakeEr = s.wakeEr := rfl
@[simp] theorem State.putLayer_cbBodies (r : LayerRegs) : (s.putLayer l r).cbBodies = s.cbBodies := rfl
@[simp] theorem State.putLayer_mem (r : LayerRegs) : (s.putLayer l r).mem = s.mem := rfl
@[simp] theorem State.putLayer_draws (r : LayerRegs) : (s.putLayer l r).draws = s.draws := rfl
@[simp] theorem State.putLayer_cur (r : LayerRegs) : (s.putLayer l r).cur = s.cur := rfl
@[simp] theorem State.putLayer_sched (r : LayerRegs) : (s.putLayer l r).sched = s.sched := rfl

@[simp] theorem RegFile.layer_setLayer (f : RegFile) (r : LayerRegs) : (f.setLayer l r).layer l = r := by cases l <;> rfl
@[simp] theorem RegFile.setLayer_setLayer (f : RegFile) (r r' : LayerRegs) :
    (f.setLayer l r).setLayer l r' = f.setLayer l r' := by cases l <;> rfl
@[simp] theorem RegFile.setLayer_layer (f : RegFile) : f.setLayer l (f.layer l) = f := by cases l <;> rfl
@[simp] theorem State.lay_putLayer (r : LayerRegs) : (s.putLayer l r).lay l = r := by cases l <;> rfl
@[simp] theorem State.putLayer_putLayer (r r' : LayerRegs) : (s.putLayer l r).putLayer l r' = s.putLayer l r' := by
  simp [State.putLayer]
@[simp] theorem State.putLayer_lay : s.putLayer l (s.lay l) = s := by simp [State.putLayer, State.lay]

/-- The other layer's block is left alone (R13). -/
theorem RegFile.layer_setLayer_other (f : RegFile) (r : LayerRegs) {l l' : Layer} (h : l ≠ l') :
    (f.setLayer l r).layer l' = f.layer l' := by
  cases l <;> cases l' <;> first | rfl | exact absurd rfl h

-- ==== the masks ====

theorem hvMask_eq : hvMask = 0x0FFF07FF#32 := by decide
theorem hhMask_eq : hhMask = 0x0FFF0FFF#32 := by decide
theorem vvMask_eq : vvMask = 0x07FF07FF#32 := by decide
theorem lengthMask_eq : lengthMask = 0xFFFF1FFF#32 := by decide
theorem hbitsMask_eq : Config.mask Config.hbits = 0xFFF#32 := by decide
theorem vbitsMask_eq : Config.mask Config.vbits = 0x7FF#32 := by decide
theorem llbitsMask_eq : Config.mask Config.llbits = 0x1FFF#32 := by decide
theorem pitchMask_eq : Config.mask Config.pitchBits = 0xFFFF#32 := by decide

-- ==== layer registers ====

theorem regWrite_cr : s.regWrite (.lay l .cr) v = s.putLayer l { s.lay l with cr := v &&& 0x13#32 } := by
  simp [State.regWrite, State.writeLayerReg, State.putLayer, State.lay, RegFile.writeLayer, LayerRegs.put, stored,
    LReg.writableMask, layerFlagMask]

theorem regWrite_whpcr : s.regWrite (.lay l .whpcr) v = s.putLayer l { s.lay l with whpcr := v &&& 0x0FFF0FFF#32 } := by
  simp [State.regWrite, State.writeLayerReg, State.putLayer, State.lay, RegFile.writeLayer, LayerRegs.put, stored,
    LReg.writableMask, hhMask_eq]

theorem regWrite_wvpcr : s.regWrite (.lay l .wvpcr) v = s.putLayer l { s.lay l with wvpcr := v &&& 0x07FF07FF#32 } := by
  simp [State.regWrite, State.writeLayerReg, State.putLayer, State.lay, RegFile.writeLayer, LayerRegs.put, stored,
    LReg.writableMask, vvMask_eq]

theorem regWrite_ckcr : s.regWrite (.lay l .ckcr) v = s.putLayer l { s.lay l with ckcr := v &&& 0x00FFFFFF#32 } := by
  simp [State.regWrite, State.writeLayerReg, State.putLayer, State.lay, RegFile.writeLayer, LayerRegs.put, stored,
    LReg.writableMask]

theorem regWrite_pfcr : s.regWrite (.lay l .pfcr) v = s.putLayer l { s.lay l with pfcr := v &&& 0x7#32 } := by
  simp [State.regWrite, State.writeLayerReg, State.putLayer, State.lay, RegFile.writeLayer, LayerRegs.put, stored,
    LReg.writableMask]

theorem regWrite_cacr : s.regWrite (.lay l .cacr) v = s.putLayer l { s.lay l with cacr := v &&& 0xFF#32 } := by
  simp [State.regWrite, State.writeLayerReg, State.putLayer, State.lay, RegFile.writeLayer, LayerRegs.put, stored,
    LReg.writableMask]

theorem regWrite_dccr : s.regWrite (.lay l .dccr) v = s.putLayer l { s.lay l with dccr := v } := by
  have h : v &&& 4294967295#32 = v := BitVec.and_allOnes (x := v)
  simp [State.regWrite, State.writeLayerReg, State.putLayer, State.lay, RegFile.writeLayer, LayerRegs.put, stored,
    LReg.writableMask, h]

theorem regWrite_bfcr : s.regWrite (.lay l .bfcr) v = s.putLayer l { s.lay l with bfcr := v &&& 0x0707#32 } := by
  simp [State.regWrite, State.writeLayerReg, State.putLayer, State.lay, RegFile.writeLayer, LayerRegs.put, stored,
    LReg.writableMask]

theorem regWrite_cfbar : s.regWrite (.lay l .cfbar) v = s.putLayer l { s.lay l with cfbar := v } := by
  have h : v &&& 4294967295#32 = v := BitVec.and_allOnes (x := v)
  simp [State.regWrite, State.writeLayerReg, State.putLayer, State.lay, RegFile.writeLayer, LayerRegs.put, stored,
    LReg.writableMask, h]

theorem regWrite_cfblr : s.regWrite (.lay l .cfblr) v = s.putLayer l { s.lay l with cfblr := v &&& 0xFFFF1FFF#32 } := by
  simp [State.regWrite, State.writeLayerReg, State.putLayer, State.lay, RegFile.writeLayer, LayerRegs.put, stored,
    LReg.writableMask, lengthMask_eq]

theorem regWrite_cfblnr : s.regWrite (.lay l .cfblnr) v = s.putLayer l { s.lay l with cfblnr := v &&& 0x7FF#32 } := by
  simp [State.regWrite, State.writeLayerReg, State.putLayer, State.lay, RegFile.writeLayer, LayerRegs.put, stored,
    LReg.writableMask, vbitsMask_eq]

theorem regWrite_clutwr : s.regWrite (.lay l .clutwr) v = s.writeClut l v := rfl

-- ==== global registers ====

theorem regWrite_sscr : s.regWrite .sscr v = { s with shadow := { s.shadow with sscr := v &&& 0x0FFF07FF#32 } } := by
  simp [State.regWrite, stored, hvMask_eq]

theorem regWrite_bpcr : s.regWrite .bpcr v = { s with shadow := { s.shadow with bpcr := v &&& 0x0FFF07FF#32 } } := by
  simp [State.regWrite, stored, hvMask_eq]

theorem regWrite_awcr : s.regWrite .awcr v = { s with shadow := { s.shadow with awcr := v &&& 0x0FFF07FF#32 } } := by
  simp [State.regWrite, stored, hvMask_eq]

theorem regWrite_twcr : s.regWrite .twcr v = { s with shadow := { s.shadow with twcr := v &&& 0x0FFF07FF#32 } } := by
  simp [State.regWrite, stored, hvMask_eq]

/-- GCR keeps its read-only bits (R45). -/
theorem regWrite_gcr : s.regWrite .gcr v
    = { s with shadow := { s.shadow with gcr := (s.shadow.gcr &&& 0x7770#32) ||| (v &&& 0xF0010001#32) } } := by
  simp [State.regWrite, stored, Reg.writableMask, gcrRoMask, gcrMask]

/-- A write to SRCR only requests (R46). -/
theorem regWrite_srcr : s.regWrite .srcr v = { s with srcr := s.srcr ||| (v &&& 0x3) } := rfl

theorem regWrite_bccr : s.regWrite .bccr v = { s with shadow := { s.shadow with bccr := v &&& 0x00FFFFFF#32 } } := by
  simp [State.regWrite, stored, Reg.writableMask]

theorem regWrite_ier : s.regWrite .ier v = { s with ier := v &&& 0xF#32 } := by
  simp [State.regWrite, stored, Reg.writableMask]

/-- ISR is read-only (R48). -/
theorem regWrite_isr : s.regWrite .isr v = s := rfl

/-- A write to ICR clears flags (R49). -/
theorem regWrite_icr : s.regWrite .icr v = { s with isr := s.isr &&& ~~~(v &&& 0xF) } := rfl

theorem regWrite_lipcr : s.regWrite .lipcr v = { s with lipcr := v &&& 0x7FF#32 } := by
  simp [State.regWrite, stored, Reg.writableMask, vbitsMask_eq]

/-- CPSR is read-only (R52). -/
theorem regWrite_cpsr : s.regWrite .cpsr v = s := rfl

/-- A read of any register but CPSR changes nothing (R107). -/
theorem afterRead_eq {r : Reg} (h : r ≠ .cpsr) : s.afterRead r = s := by
  cases r <;> first | rfl | exact absurd rfl h

theorem afterRead_cpsr : s.afterRead .cpsr = { s with draws := s.draws + 1 } := rfl

end Sys2Proof.Machine
end

