-- ==== Sys2Proof/Laws/Sched.lean ====
section
/-! SUPPORT. What a step is when a thread or a handler moves, whoever chose it; and which thread comes back from a yield under the
default policy (R131, R206, log 2, log 29): one that may, and the nearest such one after the current thread, so that a thread
that polls for ever keeps no other from coming back. -/

namespace Sys2Proof.Machine

variable {s : State} {t : Nat}

/-- The step of the thread that moves, scheduled or by the default policy. -/
theorem step_thread (h : s.ThreadMoves t) : step s = (s.switchTo t).runThread := by
  obtain ⟨hf, hi, ⟨⟨r, hr⟩, rfl, hrun⟩ | ⟨hs, he, her, hn⟩⟩ := h
  · unfold step State.advance; simp only [hf, hr, State.agentReady, hi, hrun, State.runAgent]; rfl
  · unfold step State.advance
    rcases hn with hn | ⟨hn, hy⟩
    · simp only [hf, hs, State.runDefault, hi, he, her, hn]; rfl
    · simp only [hf, hs, State.runDefault, hi, he, her, hn, hy]; rfl

/-- The step of the handler that moves, scheduled or by the default policy. -/
theorem step_handler {a : Activation} {below : List Activation} (h : s.HandlerMoves a below) :
    step s = s.runHandler a below := by
  obtain ⟨hf, hi, hr, ⟨r, hs⟩ | ⟨hs, he, her⟩⟩ := h
  · unfold step State.advance; simp only [hf, hs, State.agentReady, hi, hr, State.runAgent]; rfl
  · unfold step State.advance; simp only [hf, hs, State.runDefault, hi, hr, he, her]; rfl

/-- The thread that comes back may run, and is one of the threads. -/
theorem nextYielder_runnable (h : s.nextYielder = some t) : s.runnable t = true ∧ t < s.threads.length := by
  unfold State.nextYielder at h
  refine ⟨by simpa using List.find?_some h, ?_⟩
  obtain ⟨k, hk, rfl⟩ := List.mem_map.1 (List.mem_of_find?_eq_some h)
  exact Nat.mod_lt _ (Nat.zero_lt_of_lt (List.mem_range.1 hk))

/-- The yields are taken in turn: before a thread that may come back, `k` places after the current one's successor, only
threads nearer to it come back. -/
theorem nextYielder_fair {k : Nat} (hk : k < s.threads.length) (h : s.runnable ((s.cur + 1 + k) % s.threads.length) = true) :
    ∃ j ≤ k, s.nextYielder = some ((s.cur + 1 + j) % s.threads.length) := by
  unfold State.nextYielder
  rw [List.find?_map]
  cases hf : (List.range s.threads.length).find? ((fun t => s.runnable t) ∘ fun k => (s.cur + 1 + k) % s.threads.length) with
  | none => exact absurd h (List.find?_eq_none.1 hf k (List.mem_range.2 hk))
  | some j =>
    exact ⟨j, Nat.le_of_not_lt fun hj => by simpa [h] using (List.find?_range_eq_some.1 hf).2.2 k hj, rfl⟩

end Sys2Proof.Machine
end

