-- ==== Sys2Proof/Tests/Slice0.lean ====
section
/-! SUPPORT. The model's own tests: the well-formedness smoke, one word of every row of R145 written out bit by bit, one or
two single steps of every instruction against the values of spec/95_test_vectors.md, and for every obligation with
hypotheses a witness that they can be met together. -/

open Sys2Proof Sys2Proof.Machine

namespace Sys2Proof.Tests

set_option Elab.async false

-- ==== states ====

/-- The bytes of the fixtures of 95_test_vectors.md section 0 below 0x20000140: c1 at 0x20000000, F1 at 0x20000100, w1 at
0x20000120; then the window of V2.7.4 at 0x20000128 and the frame of V2.8.6 at 0x20000130. -/
def memLow : Mem :=
  [(0x20000000, 0xE0), (0x20000001, 0x01), (0x20000002, 0x10), (0x20000003, 0x01), (0x20000004, 0x29),
   (0x20000006, 0x0A), (0x20000008, 0x02), (0x2000000A, 0x02), (0x2000000C, 0x02), (0x2000000E, 0x02),
   (0x20000103, 0xC0), (0x20000104, 0xE0), (0x20000105, 0x01), (0x20000106, 0x10), (0x20000107, 0x01),
   (0x20000108, 0xC0), (0x20000109, 0x03), (0x2000010C, 0x02), (0x20000122, 0xDF), (0x20000123, 0x01),
   (0x20000126, 0x0F), (0x20000127, 0x01), (0x2000012A, 0xE0), (0x2000012B, 0x01), (0x2000012E, 0x0F),
   (0x2000012F, 0x01), (0x20000133, 0xC0), (0x20000134, 0xF4), (0x20000135, 0x01), (0x20000136, 0x64),
   (0x20000138, 0xE8), (0x20000139, 0x03), (0x2000013C, 0x02)]

/-- The first words of pal16 at 0x20000140, the layer specification S1 at 0x20000180, pc at 0x200001C0. -/
def memHigh : Mem :=
  [(0x20000144, 0x11), (0x20000145, 0x11), (0x20000146, 0x11), (0x20000148, 0x22), (0x20000149, 0x22),
   (0x2000014A, 0x22), (0x20000183, 0xC0), (0x20000184, 0xE0), (0x20000185, 0x01), (0x20000186, 0x10),
   (0x20000187, 0x01), (0x20000188, 0xC0), (0x20000189, 0x03), (0x2000018C, 0x02), (0x20000192, 0xDF),
   (0x20000193, 0x01), (0x20000196, 0x0F), (0x20000197, 0x01), (0x2000019B, 0xFF), (0x2000019D, 0xFF),
   (0x2000019F, 0xAB), (0x200001A0, 0xFF), (0x200001A2, 0x05), (0x200001A8, 0x07), (0x200001A9, 0x06),
   (0x200001AC, 0x03), (0x200001C0, 0x05), (0x200001C4, 0x01), (0x200001C5, 0x03)]

/-- A layer block of S_boot. -/
def bootLayer : LayerRegs where
  cr := 0
  whpcr := 0x002B002B
  wvpcr := 0x000C000C
  ckcr := 0
  pfcr := 5
  cacr := 0
  dccr := 0
  bfcr := 0x0405
  cfbar := 0
  cfblr := 0x00010004
  cfblnr := 1

/-- The registers of S_boot. -/
def bootFile : RegFile where
  sscr := 0x00280009
  bpcr := 0x002A000B
  awcr := 0x020A011B
  twcr := 0x020C011D
  gcr := 0x00002221
  bccr := 0
  l1 := bootLayer
  l2 := bootLayer

/-- S_boot of 95_test_vectors.md, with the panel selected. -/
def boot : State :=
  { State.reset with
    drvState := .ready, activeWindow := ⟨43, 522, 12, 283⟩, cfg := 0x20000000, shadow := bootFile, active := bootFile
    ier := 8, nvicEv := true, nvicEr := true, pnlState := .active, cs := .asserted, mem := memLow ++ memHigh }

/-- Thread 0 in THREAD has just issued `i`. -/
def api (i : Instr) (x y : Word) : State :=
  { boot with threads := [{ Thread.idle with prog := some ⟨encode i, ⟨x, y⟩, 0, [], none⟩ }] }

/-- Thread 0 in THREAD_LOCKED has just issued `i`. -/
def held (i : Instr) (x y : Word) : State :=
  { boot with
    threads := [{ Thread.idle with locked := true, prog := some ⟨encode i, ⟨x, y⟩, 0, [], none⟩ }]
    lockHolder := some (.thread 0) }

/-- A callback of the event handler has just issued `i`. -/
def inIsr (i : Instr) (x y : Word) : State :=
  { boot with irq := [⟨.event, ⟨8, ⟨0, 0⟩, 0, [], none⟩, false, [], some ⟨encode i, ⟨x, y⟩, 0, [], none⟩⟩] }

/-- The handler of `v` has just been entered over thread 0. -/
def entered (v : Vec) : State := { boot with irq := [.entry v] }

/-- The same build without checks. -/
def unchecked (s : State) : State := { s with par := { s.par with checks := false } }

/-- A callback of the event handler asleep in RELOAD_WAIT.S in a build without checks, its message come. -/
def wokenInIsr : State :=
  unchecked { inIsr (.reloadWait .locked) 0 0 with
    irq := [⟨.event, ⟨8, ⟨0, 0⟩, 0, [], none⟩, false, [], some (parkedCell .locked ⟨0, 0⟩ (some .wake))⟩], wakeEv := some .ok }

/-- What `f` sees in the next state. -/
def seen {α : Type} (f : State → α) : Out → Option α
  | .next s => some (f s)
  | .fault _ => none
  | .refused _ => none

/-- `i` issued by thread 0 in S_boot: what `f` sees in the next state. -/
def now {α : Type} (i : Instr) (x y : Word) (f : State → α) : Option α := seen f (exec i (api i x y))

/-- The results handed to thread 0. -/
def results (s : State) : List ResultVal := (s.threadAt 0).results.map Result.val

/-- The code of the fault mark. -/
def code (s : State) : Option FaultCode := s.fault.map FaultMark.code

theorem test_bootMemoryIsCanonical : boot.mem.wf = true := by decide +kernel

-- ==== well-formedness and decoding ====

/-- R146 (e), (f): what the check refuses, and that it admits the rest. -/
theorem test_wellFormedSmoke :
    Instr.wellFormed true true .eventIrq = false ∧ Instr.wellFormed true true .errorIrq = false
      ∧ Instr.wellFormed false true .eventIrq = true ∧ Instr.wellFormed true false .acquireBus = false
      ∧ Instr.wellFormed true false .releaseBus = false ∧ Instr.wellFormed true true .acquireBus = true
      ∧ Instr.wellFormed true false (.start .api) = true := by decide

theorem test_decodeLifecycle :
    decode 0b0000000000000000 = .instr .init
      ∧ decode 0b0000000000000001 = .instr (.start .api)
      ∧ decode 0b0000001000000010 = .instr (.stop .locked)
      ∧ decode 0b0000000000000011 = .instr (.isReloading .api)
      ∧ decode 0b0000001000000100 = .instr (.startReload .locked)
      ∧ decode 0b0000000000000101 = .instr (.reloadWait .api)
      ∧ decode 0b0000000000000110 = .instr .acquireBus
      ∧ decode 0b0000000000000111 = .instr .releaseBus
      ∧ decode 0b0000000000001000 = .instr .eventIrq
      ∧ decode 0b0000000000001001 = .instr .errorIrq := by decide

theorem test_decodeGlobal :
    decode 0b0000001000010000 = .instr (.getGlobalFlags .locked)
      ∧ decode 0b0000000000010001 = .instr (.setGlobalFlags .api)
      ∧ decode 0b0000001000010010 = .instr (.getClearColor .locked)
      ∧ decode 0b0000000000010011 = .instr (.setClearColor .api)
      ∧ decode 0b0000001000010100 = .instr (.getLinePos .locked)
      ∧ decode 0b0000000000010101 = .instr (.setLinePos .api)
      ∧ decode 0b0000001000010110 = .instr (.getCurrentPos .locked) := by decide

theorem test_decodeLayerA :
    decode 0b0000001000100000 = .instr (.getEnableFlags .l1 .locked)
      ∧ decode 0b0000001100100001 = .instr (.setEnableFlags .l2 .locked)
      ∧ decode 0b0000000000100010 = .instr (.isLayerEnabled .l1 .api)
      ∧ decode 0b0000000100100011 = .instr (.enableLayer .l2 .api)
      ∧ decode 0b0000001000100100 = .instr (.disableLayer .l1 .locked)
      ∧ decode 0b0000001100100101 = .instr (.getPixelFormat .l2 .locked)
      ∧ decode 0b0000000000100110 = .instr (.setPixelFormat .l1 .api)
      ∧ decode 0b0000000100100111 = .instr (.getKeyColor .l2 .api)
      ∧ decode 0b0000001000101000 = .instr (.setKeyColor .l1 .locked)
      ∧ decode 0b0000001100101001 = .instr (.isKeyingEnabled .l2 .locked) := by decide

theorem test_decodeLayerB :
    decode 0b0000000000101010 = .instr (.enableKeying .l1 .api)
      ∧ decode 0b0000000100101011 = .instr (.disableKeying .l2 .api)
      ∧ decode 0b0000001000101100 = .instr (.getConstAlpha .l1 .locked)
      ∧ decode 0b0000001100101101 = .instr (.setConstAlpha .l2 .locked)
      ∧ decode 0b0000000000101110 = .instr (.getDefaultColor .l1 .api)
      ∧ decode 0b0000000100101111 = .instr (.setDefaultColor .l2 .api)
      ∧ decode 0b0000001000110000 = .instr (.getBlending .l1 .locked)
      ∧ decode 0b0000001100110001 = .instr (.setBlending .l2 .locked) := by decide

theorem test_decodeLayerC :
    decode 0b0000000000110010 = .instr (.setPaletteEntry .l1 .api)
      ∧ decode 0b0000000100110011 = .instr (.setPalette .l2 .api)
      ∧ decode 0b0000001000110100 = .instr (.isPaletteEnabled .l1 .locked)
      ∧ decode 0b0000001100110101 = .instr (.enablePalette .l2 .locked)
      ∧ decode 0b0000000000110110 = .instr (.disablePalette .l1 .api)
      ∧ decode 0b0000000100110111 = .instr (.getWindow .l2 .api)
      ∧ decode 0b0000001000111000 = .instr (.setWindow .l1 .locked)
      ∧ decode 0b0000001100111001 = .instr (.setInvalidWindow .l2 .locked)
      ∧ decode 0b0000000000111010 = .instr (.getFrame .l1 .api)
      ∧ decode 0b0000000100111011 = .instr (.setFrame .l2 .api)
      ∧ decode 0b0000001000111100 = .instr (.getFrameAddress .l1 .locked)
      ∧ decode 0b0000001100111101 = .instr (.setFrameAddress .l2 .locked)
      ∧ decode 0b0000000000111110 = .instr (.getLayer .l1 .api)
      ∧ decode 0b0000000100111111 = .instr (.setLayer .l2 .api) := by decide

theorem test_decodeHelper :
    decode 0b0000000001000000 = .instr .bpp
      ∧ decode 0b0000000001000001 = .instr .toArgb8888
      ∧ decode 0b0000000001000010 = .instr .fromArgb8888 := by decide

theorem test_decodePanel :
    decode 0b0000000010000000 = .instr .pnlObjectInit
      ∧ decode 0b0000000010000001 = .instr .pnlStart
      ∧ decode 0b0000000010000010 = .instr .pnlStop
      ∧ decode 0b0000000010000011 = .instr .pnlAcquireBus
      ∧ decode 0b0000000010000100 = .instr .pnlReleaseBus
      ∧ decode 0b0000000010000101 = .instr .pnlSelect
      ∧ decode 0b0000000010000110 = .instr .pnlUnselect
      ∧ decode 0b0000000010000111 = .instr .pnlWriteCommand
      ∧ decode 0b0000000010001000 = .instr .pnlWriteByte
      ∧ decode 0b0000000010001001 = .instr .pnlReadByte
      ∧ decode 0b0000000010001010 = .instr .pnlWriteChunk
      ∧ decode 0b0000000010001011 = .instr .pnlReadChunk := by decide


/-- V2.1.13 to V2.1.18: reserved words. -/
theorem test_decodeRefuses :
    decode 0x0400 = .illegal .reservedBits ∧ decode 0xFFFF = .illegal .reservedBits ∧ decode 0x000A = .illegal .unknownOp
      ∧ decode 0x0017 = .illegal .unknownOp ∧ decode 0x0043 = .illegal .unknownOp ∧ decode 0x007F = .illegal .unknownOp
      ∧ decode 0x008C = .illegal .unknownOp ∧ decode 0x00FF = .illegal .unknownOp ∧ decode 0x0101 = .illegal .layerBit
      ∧ decode 0x0140 = .illegal .layerBit ∧ decode 0x0180 = .illegal .layerBit ∧ decode 0x0110 = .illegal .layerBit
      ∧ decode 0x0200 = .illegal .formBit ∧ decode 0x0206 = .illegal .formBit ∧ decode 0x0240 = .illegal .formBit
      ∧ decode 0x0287 = .illegal .formBit := by decide

/-- The table's words reach the decoder, and the placed word is the one the next step runs. -/
theorem test_tableWord :
    decodeTableWord 16 0x0338 = some (.setWindow .l2 .locked) ∧ decodeTableWord 16 0x10000 = none
      ∧ seen (fun s => s.drvState) (step (State.reset.withFetchWord 16 0)) = some .stop
      ∧ seen code (step (State.reset.withFetchWord 16 0x0001)) = some (some .state) := by decide +kernel

-- ==== life cycle, reload, mutex ====

/-- V2.2.2, V2.14.5: INIT after INIT; INIT keeps the panel. -/
theorem test_init :
    now .init 0 0 code = some (some .state)
      ∧ seen (fun s => (s.drvState, s.shadow.gcr, s.shadow.l2.bfcr, s.cfg, s.pnlState, s.nvicEv))
        (exec .init { api .init 0 0 with drvState := .uninit }) = some (.stop, 0x2220, 0x607, 0, .active, true) := by
  decide +kernel

/-- V1.1 step 2: START with c1. -/
theorem test_start :
    seen (fun s => s.drvState == .ready && s.activeWindow == ⟨43, 522, 12, 283⟩ && s.shadow == bootFile
        && s.active == bootFile && s.ier == 8 && s.events == [.commit 1, .commit 1, .commit 1])
      (exec (.start .api)
        { api (.start .api) 0x20000000 0 with drvState := .stop, shadow := .resetValues, active := .resetValues })
      = some true := by decide +kernel

/-- V2.2.6, P5: START in READY faults, and the lock stays taken. -/
theorem test_startInReady :
    now (.start .api) 0x20000000 0 (fun s => (code s, s.lockHolder, s.events)) = some (some .state, some (.thread 0), [.fault .state]) := by
  decide +kernel

/-- V2.2.23. -/
theorem test_stop :
    now (.stop .api) 0 0 (fun s => s.drvState == .stop && s.shadow.gcr == 0x2220 && s.active.gcr == 0x2220 && s.ier == 0
        && s.events == [.commit 1] && s.cfg == 0x20000000) = some true := by decide +kernel

/-- V2.3.1, and with a request pending V2.3.2. -/
theorem test_isReloading :
    now (.isReloading .api) 0 0 results = some [.word 0]
      ∧ seen results (exec (.isReloading .api) { api (.isReloading .api) 0 0 with srcr := 2 }) = some [.word 1] := by
  decide +kernel

/-- V2.3.2. -/
theorem test_startReload :
    now (.startReload .api) 0 0 (fun s => (s.drvState, s.srcr, s.lockHolder)) = some (.active, 2, none)
      ∧ now (.startReload .api) 7 0 (fun s => (s.drvState, s.srcr)) = some (.active, 1) := by decide +kernel

/-- V2.3.7. -/
theorem test_reloadWaitImmediate :
    now (.reloadWait .api) 1 0 (fun s => (results s, s.drvState, s.srcr, s.isr, s.events))
      = some ([.msg .ok], .ready, 0, 0, [.commit 1]) := by decide +kernel

/-- V1.6 step 1. -/
theorem test_reloadWaitParks :
    now (.reloadWait .api) 0 0 (fun s => (results s, s.drvState, s.srcr, s.waiter, s.lockHolder))
      = some ([], .active, 2, some (.thread 0), none) := by decide +kernel

/-- R520 (a): a callback's class S forms in a build without checks. STOP.S returns with the lock taken back at its yield (R206);
RELOAD_WAIT.S parks its vector with the lock free, and woken it takes its message. -/
theorem test_waitsInIsr :
    seen (fun s => (s.drvState, s.lockHolder, s.irqResults.map Result.val))
        (exec (.stop .locked) (unchecked (inIsr (.stop .locked) 0 0))) = some (.stop, some (.irq .event), [.unit])
      ∧ seen (fun s => (s.waiter, s.lockHolder, s.curCell.map Cell.wait))
        (exec (.reloadWait .locked) (unchecked (inIsr (.reloadWait .locked) 0 0)))
        = some (some (.irq .event), none, some (some .wake))
      ∧ seen (fun s => (s.wakeEv, s.lockHolder, s.irqResults.map Result.val))
        (exec (.reloadWait .locked) wokenInIsr) = some (none, some (.irq .event), [.msg .ok]) := by decide +kernel

/-- V2.2.26, V2.2.29: the mutex is not recursive. -/
theorem test_acquireBus :
    now .acquireBus 0 0 (·.ltdcOwner) = some (some (.thread 0))
      ∧ seen (fun s => (s.ltdcOwner, code s, results s))
        (exec .acquireBus { api .acquireBus 0 0 with ltdcOwner := some (.thread 1) }) = some (some (.thread 1), none, []) := by
  decide +kernel

/-- V2.2.27, V2.2.31. -/
theorem test_releaseBus :
    now .releaseBus 0 0 code = some (some .notOwner)
      ∧ seen (·.ltdcOwner) (exec .releaseBus { api .releaseBus 0 0 with ltdcOwner := some (.thread 0) }) = some none := by
  decide +kernel

/-- A thread in RELOAD_WAIT deferred, in a build without the wait slot, at its yield (R206). -/
def poller : Thread := ⟨true, none, some ⟨5, ⟨0, 0⟩, 9, [0, 2, 0, 0, 0, 0, 0, 0, 0], some .relock⟩, [], []⟩

/-- Two pollers, a vertical-blank request pending, `g` in the active GCR, thread `t` the last to move. -/
def pollers (g : Word) (t : Nat) : State :=
  { boot with
    par := { Params.default with useWait := false, checks := false }, threads := [poller, poller], drvState := .active
    srcr := 2, active := { bootFile with gcr := g }, cur := t }

/-- R131, R206, R422 (c): with the controller off neither poller ends, and each comes back in turn; with it on, the one whose turn
it is takes the commit and returns. -/
theorem test_yieldersInTurn :
    seen (fun s => (s.cur, s.srcr, s.yielding 0, s.yielding 1)) (step (pollers 0x2220 0)) = some (1, 2, true, true)
      ∧ seen (fun s => (s.cur, s.yielding 0, s.yielding 1)) (step (pollers 0x2220 1)) = some (0, true, true)
      ∧ seen (fun s => (s.cur, s.srcr, (s.threadAt 1).results.map Result.val)) (step (pollers 0x2221 0))
        = some (1, 0, [.msg .ok]) := by decide +kernel

-- ==== handlers ====

/-- V1.6 step 4 without a callback: wake, READY, acknowledge. -/
theorem test_eventIrq :
    seen (fun s => s.isr == 0 && s.drvState == .ready && s.waiter == none && s.events == [.wake (.thread 0) .ok] && s.irq == []
        && (s.threadAt 0).wakeMsg == some .ok)
      (exec .eventIrq { entered .event with isr := 8, drvState := .active, waiter := some (.thread 0) }) = some true := by decide +kernel

/-- V2.1.19: a handler's word issued by software. -/
theorem test_eventIrqBySoftware : now .eventIrq 0 0 code = some (some .illegalCommand) := by decide +kernel

/-- V2.12.3, with both error callbacks at c1 + 40 and c1 + 44 set. -/
theorem test_errorIrq :
    seen (fun s => (s.isr, s.events, s.irq))
        (exec .errorIrq
          { entered .error with isr := 6, ier := 0xF, mem := (boot.mem.set 0x20000028 3).set 0x2000002C 4 })
      = some (0, [.cb .underrun, .cb .terr], []) := by decide +kernel

/-- The index in the fault mark. -/
def markStep (s : State) : Option Nat := s.fault.map FaultMark.step

/-- R31, R453: the step of a fault mark is the index of the failed check as the pseudocode is written: F_WINDOW at the
horizontal stop check of apply_window (R316, V2.7.4: hstop 480), in both forms; the two callback checks of ERROR_IRQ (R461),
the second one after a branch not taken and after one taken. -/
theorem test_faultSteps :
    now (.setWindow .l1 .api) 0x20000128 0 markStep = some (some 10)
      ∧ seen markStep (exec (.setWindow .l1 .locked) (held (.setWindow .l1 .locked) 0x20000128 0)) = some (some 9)
      ∧ seen markStep (exec .errorIrq { entered .error with isr := 2, ier := 6 }) = some (some 3)
      ∧ seen markStep (exec .errorIrq { entered .error with isr := 4, ier := 6 }) = some (some 10)
      ∧ seen markStep (exec .errorIrq { entered .error with isr := 6, ier := 6, mem := boot.mem.set 0x20000028 3 })
        = some (some 10) := by decide +kernel

/-- The progress cell of thread 0 when `i`, given `n` micro-steps, is paused. -/
def pausedAt (i : Instr) (x y : Word) (n : Nat) : Option (Option Nat) :=
  seen (fun s => (s.threadAt 0).prog.map Cell.step)
    (exec i { api i x y with sched := List.replicate n .go ++ [.pause] })

/-- R387, R388: decode, context, state check, the shim, the level and the state are micro-steps 0 to 5; after the shim and before
the level the chip select is as it was. -/
theorem test_selectSteps :
    pausedAt .pnlUnselect 0 0 5 = some (some 5) ∧ pausedAt .pnlUnselect 0 0 6 = some none
      ∧ seen (·.cs) (exec .pnlUnselect { api .pnlUnselect 0 0 with sched := [.go, .go, .go, .go, .pause] }) = some .asserted
      ∧ seen (fun s => (s.cs, s.pnlState))
        (exec .pnlSelect
          { api .pnlSelect 0 0 with pnlState := .ready, cs := .unknown, sched := [.go, .go, .go, .go, .go, .pause] })
        = some (.asserted, .ready) := by decide +kernel

/-- R31: where the step stands before the unlock of SET_PALETTE, after 0, 1 and 2 entries; and at the first check of
apply_frame when SET_LAYER skips ReadLayerSpec. -/
theorem test_steps :
    pausedAt (.setPalette .l2 .api) 0 0 7 = some (some 10) ∧ pausedAt (.setPalette .l2 .api) 0x20000140 1 10 = some (some 10)
      ∧ pausedAt (.setPalette .l2 .api) 0x20000140 2 13 = some (some 10)
      ∧ pausedAt (.setPalette .l2 .api) 0x20000140 2 10 = some (some 7) ∧ pausedAt (.setLayer .l2 .api) 0 0 3 = some (some 22)
      ∧ pausedAt (.setLayer .l2 .api) 0x20000180 0 22 = some (some 22) := by decide +kernel

-- ==== global ====

/-- V2.4.1 to V2.4.4. -/
theorem test_globalFlags :
    now (.getGlobalFlags .api) 0 0 results = some [.word 0]
      ∧ now (.setGlobalFlags .api) 0x80000001 0 (fun s => (s.shadow.gcr, s.active.gcr)) = some (0x80002221, 0x2221)
      ∧ now (.setGlobalFlags .api) 0xFFFFFFFF 0 (·.shadow.gcr) = some 0xF0012221 := by decide +kernel

/-- V2.4.6, V2.4.7. -/
theorem test_clearColor :
    now (.setClearColor .api) 0xFF123456 0 (fun s => (s.shadow.bccr, s.active.bccr)) = some (0x123456, 0)
      ∧ seen results (exec (.getClearColor .api)
        { api (.getClearColor .api) 0 0 with shadow := { bootFile with bccr := 0x123456 } }) = some [.word 0x123456] := by
  decide +kernel

/-- V2.4.8 to V2.4.10. -/
theorem test_linePos :
    now (.setLinePos .api) 2047 0 (·.lipcr) = some 0x7FF ∧ now (.setLinePos .api) 2048 0 code = some (some .range)
      ∧ seen (·.lipcr) (exec (.setLinePos .api) (unchecked (api (.setLinePos .api) 2048 0))) = some 0
      ∧ seen results (exec (.getLinePos .api) { api (.getLinePos .api) 0 0 with lipcr := 100 }) = some [.word 100] := by
  decide +kernel

/-- R266: one result, one draw. -/
theorem test_getCurrentPos :
    now (.getCurrentPos .api) 0 0 (fun s => (s.draws, (results s).length)) = some (1, 1) := by decide +kernel

-- ==== layers ====

/-- V2.5.1 to V2.5.3. -/
theorem test_enableFlags :
    now (.getEnableFlags .l1 .api) 0 0 results = some [.word 0]
      ∧ now (.setEnableFlags .l1 .api) 0xFF 0 (fun s => (s.shadow.l1.cr, s.shadow.l2.cr)) = some (0x13, 0) := by decide +kernel

/-- S_boot with L2CR set. -/
def withCr (cr : Word) (s : State) : State := { s with shadow := { s.shadow with l2 := { s.shadow.l2 with cr := cr } } }

/-- `i` issued by thread 0 with L2CR set: L2CR after it and its results. -/
def crNow (i : Instr) (cr : Word) : Option (Word × List ResultVal) :=
  seen (fun s => (s.shadow.l2.cr, results s)) (exec i (withCr cr (api i 0 0)))

/-- V1.12, both forms of the predicate. -/
theorem test_isLayerEnabled :
    crNow (.isLayerEnabled .l2 .api) 0x12 = some (0x12, [.word 0]) ∧ crNow (.isLayerEnabled .l2 .api) 0x11 = some (0x11, [.word 1])
      ∧ seen results (exec (.isLayerEnabled .l2 .api)
        { withCr 0x12 (api (.isLayerEnabled .l2 .api) 0 0) with par := { Params.default with isEnabledMaskBug := true } })
        = some [.word 1] := by decide +kernel

/-- V2.5.4 to V2.5.6. -/
theorem test_layerEnable :
    crNow (.enableLayer .l2 .api) 0x12 = some (0x13, [.unit]) ∧ crNow (.disableLayer .l2 .api) 0x13 = some (0x12, [.unit]) := by
  decide +kernel

/-- V2.5.7, V2.5.8. -/
theorem test_keying :
    crNow (.enableKeying .l2 .api) 1 = some (3, [.unit]) ∧ crNow (.disableKeying .l2 .api) 3 = some (1, [.unit])
      ∧ crNow (.isKeyingEnabled .l2 .api) 3 = some (3, [.word 1]) ∧ crNow (.isKeyingEnabled .l2 .api) 1 = some (1, [.word 0]) := by
  decide +kernel

/-- V2.6.15, V2.6.16. -/
theorem test_paletteEnable :
    crNow (.enablePalette .l2 .api) 1 = some (0x11, [.unit]) ∧ crNow (.disablePalette .l2 .api) 0x11 = some (1, [.unit])
      ∧ crNow (.isPaletteEnabled .l2 .api) 0x11 = some (0x11, [.word 1])
      ∧ crNow (.isPaletteEnabled .l2 .api) 1 = some (1, [.word 0]) := by decide +kernel

/-- V2.5.9 to V2.5.12. -/
theorem test_pixelFormat :
    now (.getPixelFormat .l1 .api) 0 0 results = some [.word 5] ∧ now (.setPixelFormat .l1 .api) 7 0 (·.shadow.l1.pfcr) = some 7
      ∧ now (.setPixelFormat .l1 .api) 8 0 code = some (some .range)
      ∧ seen (·.shadow.l1.pfcr) (exec (.setPixelFormat .l1 .api) (unchecked (api (.setPixelFormat .l1 .api) 9 0))) = some 1 := by
  decide +kernel

/-- V2.5.13, V2.5.17: the setters. -/
theorem test_keyAndDefaultColor :
    now (.setKeyColor .l1 .api) 0xAB123456 0 (·.shadow.l1.ckcr) = some 0x123456
      ∧ now (.setDefaultColor .l1 .api) 0x80123456 0 (·.shadow.l1.dccr) = some 0x80123456 := by decide +kernel

/-- V2.9.2: what the getters read of S1's values on layer 2. -/
theorem test_layerGetters :
    let s := fun i : Instr =>
      { api i 0 0 with shadow := { bootFile with l2 := { bootLayer with ckcr := 0xFF00, dccr := 0xFF000000, cacr := 0xFF, bfcr := 0x607 } } }
    seen results (exec (.getKeyColor .l2 .api) (s (.getKeyColor .l2 .api))) = some [.word 0xFF00]
      ∧ seen results (exec (.getDefaultColor .l2 .api) (s (.getDefaultColor .l2 .api))) = some [.word 0xFF000000]
      ∧ seen results (exec (.getConstAlpha .l2 .api) (s (.getConstAlpha .l2 .api))) = some [.word 0xFF]
      ∧ seen results (exec (.getBlending .l2 .api) (s (.getBlending .l2 .api))) = some [.word 0x607] := by decide +kernel

/-- V2.5.15, V2.5.16, V2.5.19. -/
theorem test_alphaAndBlending :
    now (.setConstAlpha .l1 .api) 0x1FF 0 (fun s => (s.shadow.l1.cacr, s.shadow.l2.cacr)) = some (0xFF, 0)
      ∧ now (.setBlending .l1 .api) 0xFFFF 0 (·.shadow.l1.bfcr) = some 0x0707 := by decide +kernel

/-- V2.6.1, V2.6.2, V2.6.4, V2.6.5. -/
theorem test_setPaletteEntry :
    now (.setPaletteEntry .l2 .api) 255 0xFFFFFFFF (fun s => (s.clutShadow.l2[255], s.clutActive.l2[255])) = some (0xFFFFFF, 0)
      ∧ now (.setPaletteEntry .l2 .api) 256 0 code = some (some .range)
      ∧ seen code (exec (.setPaletteEntry .l2 .api) (withCr 1 (api (.setPaletteEntry .l2 .api) 300 0)))
        = some (some .layerEnabled) := by decide +kernel

/-- V2.6.7 (its first three entries), V2.6.8, V2.6.11. -/
theorem test_setPalette :
    now (.setPalette .l2 .api) 0x20000140 3 (fun s => (s.clutShadow.l2[0], s.clutShadow.l2[1], s.clutShadow.l2[2]))
        = some (0, 0x111111, 0x222222)
      ∧ now (.setPalette .l2 .api) 0 0 code = some none ∧ now (.setPalette .l2 .api) 0 1 code = some (some .null) := by
  decide +kernel

/-- V2.7.1, V2.7.4. -/
theorem test_setWindow :
    now (.setWindow .l1 .api) 0x20000120 0 (fun s => (s.shadow.l1.whpcr, s.shadow.l1.wvpcr, s.active.l1.whpcr))
        = some (0x020A002B, 0x011B000C, 0x002B002B)
      ∧ now (.setWindow .l1 .api) 0x20000128 0 (fun s => (code s, s.shadow.l1.whpcr)) = some (some .window, 0x002B002B) := by
  decide +kernel

/-- V2.7.8, V1.3 step 3: the window of V2.7.1 read back. -/
theorem test_getAndInvalidWindow :
    now (.setInvalidWindow .l2 .api) 0 0 (fun s => (s.shadow.l2.whpcr, s.shadow.l2.wvpcr)) = some (0x002B002B, 0x000C000C)
      ∧ seen (fun s => s.mem.readLe 0x20000202 4) (exec (.getWindow .l1 .api)
        { api (.getWindow .l1 .api) 0x20000200 0 with
          shadow := { bootFile with l1 := { bootLayer with whpcr := 0x020A002B, wvpcr := 0x011B000C } } })
        = some 0x000001DF := by decide +kernel

/-- V2.8.1, V2.8.6. -/
theorem test_setFrame :
    now (.setFrame .l2 .api) 0x20000100 0
        (fun s => (s.shadow.l2.pfcr, s.shadow.l2.cfbar, s.shadow.l2.cfblr, s.shadow.l2.cfblnr))
        = some (2, 0xC0000000, 0x03C003C3, 0x110)
      ∧ now (.setFrame .l2 .api) 0x20000130 0 code = some (some .geometry) := by decide +kernel

/-- V2.8.18. -/
theorem test_getFrame :
    now (.getFrame .l1 .api) 0x20000200 0
        (fun s => (s.mem.readLe 0x20000204 4, s.mem.readLe 0x20000208 4, s.mem.readLe 0x2000020C 4))
      = some (0x00010001, 1, 5) := by decide +kernel

/-- V2.8.19. -/
theorem test_frameAddress :
    now (.setFrameAddress .l1 .api) 0xC0040000 0 (fun s => (s.shadow.l1.cfbar, s.shadow.l1.cfblr)) = some (0xC0040000, 0x10004)
      ∧ seen results (exec (.getFrameAddress .l1 .api)
        { api (.getFrameAddress .l1 .api) 0 0 with shadow := { bootFile with l1 := { bootLayer with cfbar := 0xC0040000 } } })
        = some [.word 0xC0040000] := by decide +kernel

/-- V1.11: byte 33 is left alone. -/
theorem test_getLayer :
    seen (fun s => (s.mem.readLe 0x2000020C 4, s.mem.readLe 0x20000220 4, s.mem.readLe 0x20000228 4))
        (exec (.getLayer .l1 .api)
          { api (.getLayer .l1 .api) 0x20000200 0 with mem := boot.mem.set 0x20000221 0xEE })
      = some (5, 0x0000EE00, 0x0405) := by decide +kernel

/-- V2.9.1, V2.9.3. -/
theorem test_setLayer :
    now (.setLayer .l2 .api) 0x20000180 0 (fun s => s.shadow.l2)
        = some ⟨3, 0x020A002B, 0x011B000C, 0xFF00, 2, 0xFF, 0xFF000000, 0x607, 0xC0000000, 0x03C003C3, 0x110⟩
      ∧ now (.setLayer .l2 .api) 0 0 (fun s => s.shadow.l2 == bootLayer) = some true := by decide +kernel

-- ==== helpers ====

/-- V1.8, V2.10.1. -/
theorem test_bpp :
    now .bpp 2 0 results = some [.word 16] ∧ now .bpp 7 0 results = some [.word 16] ∧ now .bpp 8 0 code = some (some .range) := by
  decide +kernel

/-- V1.7, V2.10.3, V2.10.7, V2.10.9. -/
theorem test_toArgb8888 :
    now .toArgb8888 0x107E0 2 results = some [.word 0xFF00FF00] ∧ now .toArgb8888 0x8410 2 results = some [.word 0xFF848284]
      ∧ now .toArgb8888 0x7FFF 3 results = some [.word 0x00FFFFFF]
      ∧ now .toArgb8888 0xABCD 4 results = some [.word 0xAABBCCDD] := by decide +kernel

/-- V1.7, V2.10.8, V2.10.9, V2.10.10. -/
theorem test_fromArgb8888 :
    now .fromArgb8888 0xFF00FF00 2 results = some [.word 0x07E0] ∧ now .fromArgb8888 0x80FF8040 3 results = some [.word 0xFE08]
      ∧ now .fromArgb8888 0xFF808080 4 results = some [.word 0xF888]
      ∧ now .fromArgb8888 0x12345678 1 results = some [.word 0x345678] := by decide +kernel

-- ==== panel ====

/-- A panel command issued in the panel state `p`. -/
def panel {α : Type} (p : PnlState) (i : Instr) (x y : Word) (f : State → α) : Option α :=
  seen f (exec i { api i x y with pnlState := p })

/-- V2.11.1, V2.11.2. -/
theorem test_pnlObjectInit :
    panel .absent .pnlObjectInit 0 0 (fun s => (s.pnlState, s.pnlCfg, s.pnlOwner)) = some (.stop, none, none)
      ∧ panel .stop .pnlObjectInit 0 0 code = some (some .state) := by decide +kernel

/-- V2.11.3 to V2.11.5, V2.11.20, V2.11.21. -/
theorem test_pnlStartStop :
    panel .stop .pnlStart 0x200001C0 0 (fun s => (s.pnlState, s.pnlCfg)) = some (.ready, some ⟨5, 0x301⟩)
      ∧ panel .stop .pnlStart 0 0 code = some (some .null) ∧ panel .ready .pnlStop 0 0 (·.pnlState) = some .stop
      ∧ panel .active .pnlStop 0 0 code = some (some .state) := by decide +kernel

/-- V2.11.23 to V2.11.25. -/
theorem test_pnlBus :
    panel .ready .pnlAcquireBus 0 0 (·.pnlOwner) = some (some (.thread 0))
      ∧ panel .absent .pnlAcquireBus 0 0 code = some (some .state)
      ∧ panel .ready .pnlReleaseBus 0 0 code = some (some .notOwner)
      ∧ seen (·.pnlOwner) (exec .pnlReleaseBus { api .pnlReleaseBus 0 0 with pnlOwner := some (.thread 0) }) = some none := by
  decide +kernel

/-- V2.11.7, V2.11.8, V2.11.18. -/
theorem test_pnlSelectUnselect :
    panel .ready .pnlSelect 0 0 (fun s => (s.cs, s.pnlState)) = some (.asserted, .active)
      ∧ panel .active .pnlSelect 0 0 code = some (some .state)
      ∧ panel .active .pnlUnselect 0 0 (fun s => (s.cs, s.pnlState)) = some (.deasserted, .ready) := by decide +kernel

/-- V2.11.10, V2.11.11. -/
theorem test_pnlWrites :
    now .pnlWriteCommand 0x2A 0 (fun s => (s.wire, s.pnlScratch, s.dcx)) = some ([⟨.tx, .low, .asserted, 0x2A⟩], 0x2A, .low)
      ∧ now .pnlWriteByte 0x1FF 0 (fun s => (s.wire, s.pnlScratch, s.dcx))
        = some ([⟨.tx, .high, .asserted, 0xFF⟩], 0xFF, .high) := by decide +kernel

/-- V2.11.12: one received byte, framed as data. -/
theorem test_pnlReadByte :
    now .pnlReadByte 0 0 (fun s => (s.draws, s.dcx, s.wire.map WireEntry.dir)) = some (1, .high, [.rx]) := by decide +kernel

/-- P4 step 6's order of bytes, from pc; V2.11.13, V2.11.15. -/
theorem test_pnlWriteChunk :
    now .pnlWriteChunk 0x200001C4 2 (·.wire) = some [⟨.tx, .high, .asserted, 0x01⟩, ⟨.tx, .high, .asserted, 0x03⟩]
      ∧ now .pnlWriteChunk 0x200001C4 0 code = some (some .range) ∧ now .pnlWriteChunk 0 4 code = some (some .null)
      ∧ seen code (exec .pnlWriteChunk (unchecked (api .pnlWriteChunk 0 1))) = some (some .crash) := by decide +kernel

/-- V2.11.17: two received bytes; the scratch byte stays. -/
theorem test_pnlReadChunk :
    now .pnlReadChunk 0x20000240 2 (fun s => (s.draws, s.pnlScratch, s.wire.map WireEntry.dcx)) = some (2, 0, [.high, .high]) := by
  decide +kernel

-- ==== witnesses: the hypotheses of each obligation, met together ====

/-- Thread 0 has just issued the word `w`. -/
def raw (w : CmdWord) : State := { boot with threads := [{ Thread.idle with prog := some ⟨w, ⟨0, 0⟩, 0, [], none⟩ }] }

/-- The callbacks of the configuration at 0x20000000: line, reload-done, underrun, transfer error. -/
def withCallbacks (a b c d : Byte) (s : State) : State :=
  { s with mem := (((s.mem.set 0x20000020 a).set 0x20000024 b).set 0x20000028 c).set 0x2000002C d }

/-- Callback 1 issues SET_LINE_POS.S line=3. -/
def withBody (s : State) : State := { s with cbBodies := [(1, [⟨0x0215, ⟨3, 0⟩⟩])] }

theorem next_of_seen {α : Type} {f : State → α} {o : Out} {v : α} (h : seen f o = some v) : ∃ t, o = .next t := by
  cases o with
  | next t => exact ⟨t, rfl⟩
  | fault _ => cases h
  | refused _ => cases h

/-- A command issued in THREAD with the lock free: the hypotheses that most completion statements share. -/
theorem witness_issuedByThread (i : Instr) (x y : Word) :
    (api i x y).Issued i ⟨x, y⟩ ∧ (api i x y).MayRunI .api ∧ (api i x y).MayRunS .api :=
  ⟨⟨rfl, rfl⟩, ⟨rfl, rfl⟩, rfl, rfl⟩

/-- A command issued in THREAD_LOCKED. -/
theorem witness_issuedUnderTheLock (i : Instr) (x y : Word) :
    (held i x y).Issued i ⟨x, y⟩ ∧ (held i x y).MayRunI .locked ∧ (held i x y).MayRunS .locked :=
  ⟨⟨rfl, rfl⟩, .inr rfl, .inr rfl⟩

/-- A command issued by a callback. -/
theorem witness_issuedInIsr (i : Instr) (x y : Word) :
    (inIsr i x y).Issued i ⟨x, y⟩ ∧ (inIsr i x y).MayRunI .locked :=
  ⟨⟨rfl, rfl⟩, .inr rfl⟩

/-- A command issued by a callback in a build without checks: the class S forms and the api class run there too. -/
theorem witness_issuedInIsrUnchecked (i : Instr) (x y : Word) :
    let s := unchecked (inIsr i x y)
    s.Issued i ⟨x, y⟩ ∧ s.MayRunI .locked ∧ s.MayRunS .locked ∧ s.Passes (s.ctx == .thread) ∧ s.wakeOf s.self = none :=
  ⟨⟨rfl, rfl⟩, .inl rfl, .inl rfl, .inl rfl, rfl⟩

theorem witness_DecodeIsInjective : decode 0x033F = .instr (.setLayer .l2 .locked) := by decide

theorem witness_ReservedOpNeverExecutes :
    ([0x000A, 0x000F, 0x0017, 0x001F, 0x0043, 0x007F, 0x008C, 0x00FF].all fun w =>
      decide ((0x09 < opField w ∧ opField w < 0x10) ∨ (0x16 < opField w ∧ opField w < 0x20)
          ∨ (0x42 < opField w ∧ opField w < 0x80) ∨ 0x8B < opField w)
        && (raw w).sched == [] && (raw w).curCell == some ⟨w, ⟨0, 0⟩, 0, [], none⟩) = true := by decide +kernel

/-- Clause (1): a thread with a command under way, scheduled, picked by the default policy, and coming back from a yield. -/
theorem witness_StepRunsTheDecodedCommand :
    ({ api .init 0 0 with sched := [.go] }.ThreadMoves 0 ∧ (api .init 0 0).ThreadMoves 0
      ∧ ((api .init 0 0).threadAt 0).prog = some ⟨0, ⟨0, 0⟩, 0, [], none⟩ ∧ decode 0 = .instr .init)
      ∧ (pollers 0x2220 0).ThreadMoves 1 ∧ ((pollers 0x2220 0).threadAt 1).prog = poller.prog
      ∧ decode 5 = .instr (.reloadWait .api) :=
  ⟨⟨⟨rfl, rfl, .inl ⟨⟨[], rfl⟩, rfl, rfl⟩⟩, ⟨rfl, rfl, .inr (by decide +kernel)⟩, rfl, by decide⟩,
    ⟨rfl, rfl, .inr (by decide +kernel)⟩, rfl, by decide⟩

/-- Clause (2): an idle thread with a command to issue. -/
theorem witness_StepRunsTheDecodedCommand_issue :
    let s := { boot with threads := [{ Thread.idle with program := [.cmd ⟨0x033F, ⟨0, 0⟩⟩] }] }
    s.ThreadMoves 0 ∧ (s.threadAt 0).prog = none ∧ (s.threadAt 0).program = [.cmd ⟨0x033F, ⟨0, 0⟩⟩] :=
  ⟨⟨rfl, rfl, .inr (by decide +kernel)⟩, rfl, rfl⟩

/-- Clause (3): a handler, scheduled and by the default policy. -/
theorem witness_StepRunsTheDecodedCommand_handler :
    { entered .event with sched := [.go] }.HandlerMoves (.entry .event) [] ∧ (entered .event).HandlerMoves (.entry .event) []
      ∧ (Activation.entry .event).bodyCell = none ∧ (Activation.entry .event).body = []
      ∧ decode (Activation.entry .event).cell.word = .instr .eventIrq :=
  ⟨⟨rfl, rfl, rfl, .inl ⟨[], rfl⟩⟩, ⟨rfl, rfl, rfl, .inr (by decide +kernel)⟩, rfl, rfl, by decide⟩

/-- Clauses (4) and (5): a callback's command under way, and a callback's next command. -/
theorem witness_StepRunsTheDecodedCommand_body :
    (let a : Activation := ⟨.event, ⟨8, ⟨0, 0⟩, 0, [], none⟩, false, [], some ⟨0x0215, ⟨3, 0⟩, 1, [0], none⟩⟩
     { boot with irq := [a] }.HandlerMoves a [] ∧ a.bodyCell = some ⟨0x0215, ⟨3, 0⟩, 1, [0], none⟩)
      ∧ (let a := { Activation.entry .event with body := [⟨0x0215, ⟨2047, 0⟩⟩] }
         { boot with irq := [a] }.HandlerMoves a [] ∧ a.bodyCell = none ∧ a.body = [⟨0x0215, ⟨2047, 0⟩⟩])
      ∧ decode 0x0215 = .instr (.setLinePos .locked) :=
  ⟨⟨⟨rfl, rfl, rfl, .inr (by decide +kernel)⟩, rfl⟩, ⟨⟨rfl, rfl, rfl, .inr (by decide +kernel)⟩, rfl, rfl⟩, by decide⟩

/-- A free lock; the lock held by the thread that gives it up, scheduled, and by nobody; the lock held by another. -/
theorem witness_OwnLockAndUnlock :
    let s := fun (i : Item) (h : Option Agent) (q : List Slot) =>
      { boot with threads := [{ Thread.idle with program := [i] }], lockHolder := h, sched := q }
    ((s .lock none []).ThreadMoves 0 ∧ ((s .lock none []).threadAt 0).prog = none
        ∧ ((s .lock none []).threadAt 0).program = [.lock])
      ∧ (s .unlock (some (.thread 0)) [.go]).ThreadMoves 0 ∧ (s .unlock none []).ThreadMoves 0
      ∧ (s .lock (some (.thread 1)) []).lockHolder ≠ none :=
  ⟨⟨⟨rfl, rfl, .inr (by decide +kernel)⟩, rfl, rfl⟩, ⟨rfl, rfl, .inl ⟨⟨[], rfl⟩, rfl, rfl⟩⟩,
    ⟨rfl, rfl, .inr (by decide +kernel)⟩, by decide +kernel⟩

/-- Each clause: before the read, before the write, and with a commit due between them. -/
theorem witness_EnableLayerInMicroSteps :
    let at_ := fun (n : Nat) (log : List Word) (q : List Slot) =>
      { held (.enableLayer .l2 .locked) 0 0 with
        threads := [{ Thread.idle with locked := true, prog := some ⟨encode (.enableLayer .l2 .locked), ⟨0, 0⟩, n, log, none⟩ }]
        sched := q, srcr := 1 }
    (at_ 2 [0, 0] [.go, .pause]).curCell = some ⟨encode (.enableLayer .l2 .locked), ⟨0, 0⟩, 2, [0, 0], none⟩
      ∧ (at_ 3 [2, 0, 0] [.go]).curCell = some ⟨encode (.enableLayer .l2 .locked), ⟨0, 0⟩, 3, [2, 0, 0], none⟩
      ∧ (at_ 2 [0, 0] [.go, .raster .commit, .go]).commitEnabled = true := by decide +kernel

theorem witness_FaultEntryAndHalt : { boot with fault := some ⟨.state, 0, 0, .thread 0, none⟩ }.fault ≠ none := by decide

theorem witness_InvariantKept : boot.Inv ∧ (api (.setLinePos .api) 2047 0).Inv
    ∧ ∃ t, step (api (.setLinePos .api) 2047 0) = .next t := by
  refine ⟨?_, ?_, next_of_seen (f := fun _ => true) (v := true) (by decide +kernel)⟩
  all_goals unfold State.Inv; and_intros <;> decide +kernel

/-- An api form under the lock, a class S locked form in THREAD, a panel command in ISR. -/
theorem witness_WrongContextFaults :
    ((held (.setWindow .l1 .api) 0 0).Issued (.setWindow .l1 .api) ⟨0, 0⟩
      ∧ (Instr.setWindow .l1 .api).presentIn (held (.setWindow .l1 .api) 0 0).par.useMutex = true
      ∧ (Instr.setWindow .l1 .api).cls = some (.intSafe .api)
      ∧ (CmdClass.intSafe .api).admits (held (.setWindow .l1 .api) 0 0).ctx = false
      ∧ (held (.setWindow .l1 .api) 0 0).par.checks = true)
      ∧ ((api (.start .locked) 0 0).Issued (.start .locked) ⟨0, 0⟩ ∧ (Instr.start .locked).cls = some (.schedLocked .locked)
        ∧ (CmdClass.schedLocked .locked).admits (api (.start .locked) 0 0).ctx = false)
      ∧ (inIsr .pnlSelect 0 0).Issued .pnlSelect ⟨0, 0⟩ ∧ Instr.pnlSelect.cls = some .api
        ∧ CmdClass.api.admits (inIsr .pnlSelect 0 0).ctx = false :=
  ⟨⟨⟨rfl, rfl⟩, rfl, rfl, rfl, rfl⟩, ⟨⟨rfl, rfl⟩, rfl, rfl⟩, ⟨rfl, rfl⟩, rfl, rfl⟩

/-- Under the lock, and in ISR. -/
theorem witness_ApiFormStuckWithoutChecks :
    let s := unchecked (held (.setClearColor .api) 0 0)
    let t := unchecked (inIsr (.stop .api) 0 0)
    (s.Issued (.setClearColor .api) ⟨0, 0⟩ ∧ (Instr.setClearColor .api).cls = some (.intSafe .api)
      ∧ (CmdClass.intSafe .api).takesLock = true ∧ s.ctx ≠ .thread ∧ s.par.checks = false)
      ∧ t.Issued (.stop .api) ⟨0, 0⟩ ∧ (Instr.stop .api).cls = some (.schedLocked .api)
        ∧ (CmdClass.schedLocked .api).takesLock = true ∧ t.ctx ≠ .thread ∧ t.par.checks = false :=
  ⟨⟨⟨rfl, rfl⟩, rfl, rfl, by decide +kernel, rfl⟩, ⟨rfl, rfl⟩, rfl, rfl, by decide +kernel, rfl⟩

theorem witness_ApiFormWaitsForTheLock :
    let s := { api (.setClearColor .api) 0 0 with lockHolder := some (.thread 1) }
    s.Issued (.setClearColor .api) ⟨0, 0⟩ ∧ (Instr.setClearColor .api).cls = some (.intSafe .api)
      ∧ (CmdClass.intSafe .api).takesLock = true ∧ s.ctx = .thread ∧ s.lockHolder ≠ none :=
  ⟨⟨rfl, rfl⟩, rfl, rfl, rfl, by decide +kernel⟩

theorem witness_IllegalForTheIssuerFaults :
    ((raw 8).sched = [] ∧ (raw 8).irq = [] ∧ (raw 8).curCell = some ⟨Vec.event.word, ⟨0, 0⟩, 0, [], none⟩)
      ∧ ((raw 9).sched = [] ∧ (raw 9).irq = [] ∧ (raw 9).curCell = some ⟨Vec.error.word, ⟨0, 0⟩, 0, [], none⟩)
      ∧ (let s := inIsr .errorIrq 0 0
         s.sched = [] ∧ (∀ a below, s.irq = a :: below → a.bodyCell ≠ none)
           ∧ s.curCell = some ⟨Vec.error.word, ⟨0, 0⟩, 0, [], none⟩)
      ∧ let s := { api .releaseBus 0 0 with par := { Params.default with useMutex := false } }
        s.Issued .releaseBus ⟨0, 0⟩ ∧ s.par.useMutex = false :=
  ⟨⟨rfl, rfl, rfl⟩, ⟨rfl, rfl, rfl⟩, ⟨rfl, fun _ _ h => by cases h; exact Option.some_ne_none _, rfl⟩, ⟨rfl, rfl⟩, rfl⟩

theorem witness_EntrySavesNothing :
    let s := { boot with isr := 8, sched := [.deliver .event] }
    s.fault = none ∧ s.sched = [.deliver .event] ∧ s.deliverable .event = true := by decide +kernel

/-- Both flags at once, and each alone. -/
theorem witness_EventIrqCompletes :
    ([1, 8, 9].all fun i =>
      let s := withCallbacks 1 2 3 4 { entered .event with isr := i, ier := 0xF, drvState := .active }
      s.sched == [] && s.irq == [.entry .event] && s.cfg != 0 && aligned4 s.cfg && s.callbackId 32 != 0 && s.cbBody (s.callbackId 32) == []
        && s.cbBody (s.callbackId 36) == [] && s.drvState == .active) = true := by decide +kernel

theorem witness_ErrorIrqCompletes :
    ([2, 4, 6].all fun i =>
      let s := withCallbacks 1 2 3 4 { entered .error with isr := i, ier := 0xF }
      s.sched == [] && s.irq == [.entry .error] && s.cfg != 0 && aligned4 s.cfg && s.callbackId 40 != 0 && s.cbBody (s.callbackId 40) == []
        && s.callbackId 44 != 0 && s.cbBody (s.callbackId 44) == []) = true := by decide +kernel

/-- Each of the four callbacks with a body; the second flag of each handler with the first one sampled, its callback's body empty, and
without. -/
theorem witness_HandlerWaitsForTheCallbackBody :
    ((let s := withBody (withCallbacks 1 0 0 0 { entered .event with isr := 1, ier := 9 })
      s.irq == [.entry .event] && hasBits (s.isr &&& s.ier) 1 && s.callbackId 32 != 0 && s.cbBody (s.callbackId 32) != [])
    && ([8, 9].all fun i =>
      let s := withBody (withCallbacks 2 1 0 0 { entered .event with isr := i, ier := 9 })
      s.sched == [] && s.cfg != 0 && aligned4 s.cfg && hasBits (s.isr &&& s.ier) 8 && s.callbackId 32 != 0
        && s.cbBody (s.callbackId 32) == [] && s.callbackId 36 != 0 && s.cbBody (s.callbackId 36) != [])
    && (let s := withBody (withCallbacks 0 0 1 0 { entered .error with isr := 2, ier := 6 })
        s.irq == [.entry .error] && hasBits (s.isr &&& s.ier) 2 && s.callbackId 40 != 0 && s.cbBody (s.callbackId 40) != [])
    && ([4, 6].all fun i =>
      let s := withBody (withCallbacks 0 0 2 1 { entered .error with isr := i, ier := 6 })
      s.sched == [] && hasBits (s.isr &&& s.ier) 4 && s.callbackId 40 != 0 && s.cbBody (s.callbackId 40) == []
        && s.callbackId 44 != 0 && s.cbBody (s.callbackId 44) != [])) = true := by decide +kernel

/-- The four places a handler resumes at, both flags sampled and one; each is the place the handler itself stops at. -/
theorem witness_HandlerResumesAfterTheCallbackBody :
    (([1, 9].all fun i =>
      let s := withBody (withCallbacks 1 2 0 0 { entered .event with isr := i, ier := 9, drvState := .active })
      seen State.irq (exec .eventIrq s) == some [handlerAt .event 7 [0, 0, 0, 0, 1, 9, i] [⟨0x0215, ⟨3, 0⟩⟩]]
        && hasBits (i &&& 9) 1 && s.cfg != 0 && aligned4 s.cfg && s.cbBody (s.callbackId 36) == [] && s.drvState == .active)
    && ([8, 9].all fun i =>
      let s := withBody (withCallbacks 2 1 0 0 { entered .event with isr := i, ier := 9, drvState := .active })
      seen State.irq (exec .eventIrq s)
          == some [handlerAt .event 12 ([0, 0, 1] ++ branchLog (i &&& 9) 1 2 ++ [9, i]) [⟨0x0215, ⟨3, 0⟩⟩]]
        && hasBits (i &&& 9) 8)
    && ([2, 6].all fun i =>
      let s := withBody (withCallbacks 0 0 1 2 { entered .error with isr := i, ier := 6 })
      seen State.irq (exec .errorIrq s) == some [handlerAt .error 7 [0, 0, 0, 0, 1, 6, i] [⟨0x0215, ⟨3, 0⟩⟩]]
        && hasBits (i &&& 6) 2 && s.callbackId 44 != 0 && s.cbBody (s.callbackId 44) == [])
    && ([4, 6].all fun i =>
      let s := withBody (withCallbacks 0 0 2 1 { entered .error with isr := i, ier := 6 })
      seen State.irq (exec .errorIrq s)
          == some [handlerAt .error 14 ([0, 0, 0, 0, 1] ++ branchLog (i &&& 6) 2 2 ++ [6, i]) [⟨0x0215, ⟨3, 0⟩⟩]]
        && hasBits (i &&& 6) 4)) = true := by decide +kernel

/-- The line, underrun and transfer-error callbacks null; the reload-done path in READY. -/
theorem witness_HandlerFaults :
    (let s := { entered .event with isr := 1, ier := 0xF }
     s.Entered .event [] ∧ s.cfg ≠ 0 ∧ aligned4 s.cfg = true ∧ hasBits (s.isr &&& s.ier) 1 = true ∧ s.callbackId 32 = 0)
      ∧ (let s := { entered .error with isr := 2, ier := 0xF }
         s.Entered .error [] ∧ s.cfg ≠ 0 ∧ aligned4 s.cfg = true ∧ hasBits (s.isr &&& s.ier) 2 = true ∧ s.callbackId 40 = 0)
      ∧ (let s := { entered .error with isr := 4, ier := 0xF }
         s.Entered .error [] ∧ hasBits (s.isr &&& s.ier) 2 = false ∧ hasBits (s.isr &&& s.ier) 4 = true ∧ s.callbackId 44 = 0)
      ∧ (let s := { entered .event with isr := 8, ier := 0xF }
         s.Entered .event [] ∧ hasBits (s.isr &&& s.ier) 1 = false ∧ hasBits (s.isr &&& s.ier) 8 = true ∧ s.callbackId 36 = 0
           ∧ s.par.checks = true ∧ s.drvState ≠ .active)
      ∧ (let s := { entered .event with isr := 8, ier := 8, cfg := 0 }
         s.Entered .event [] ∧ s.cfg = 0 ∧ hasBits (s.isr &&& s.ier) 9 = true)
      ∧ let s := { entered .error with isr := 4, ier := 6, cfg := 0 }
        s.Entered .error [] ∧ s.cfg = 0 ∧ hasBits (s.isr &&& s.ier) 6 = true :=
  ⟨⟨⟨rfl, rfl⟩, by decide +kernel⟩, ⟨⟨rfl, rfl⟩, by decide +kernel⟩, ⟨⟨rfl, rfl⟩, by decide +kernel⟩,
    ⟨⟨rfl, rfl⟩, by decide +kernel⟩, ⟨⟨rfl, rfl⟩, by decide +kernel⟩, ⟨rfl, rfl⟩, by decide +kernel⟩

theorem witness_RasterWritesOnlyItsOwn :
    hasBits RegFile.resetValues.gcr 1 = false ∧ hasBits boot.srcr 1 = false := by decide

theorem witness_RegisterWrites : LReg.cfbar ≠ .clutwr ∧ LReg.cr ≠ .cfbar ∧ Layer.l2 ≠ .l1 ∧ (255 : Nat) < 256 := by decide

theorem witness_LineLengthUnpacks :
    ((8188 : Word) ≤ Config.limits.maxLineBytes ∧ (0xFFFF : Word).toNat < 2 ^ Config.pitchBits)
      ∧ (0 : Word) ≤ Config.limits.maxLineBytes := by decide

theorem witness_WindowReadsBack :
    let a : ActiveWindow := ⟨1, 4095, 1, 2047⟩
    (4094 : Word) + a.hs ≤ 4095 ∧ (2046 : Word) + a.vs ≤ 2047 ∧ (0 : Word) + a.hs ≤ 4095 := by decide

theorem witness_GlobalGettersComplete :
    (let s := api (.isReloading .api) 0 0
     s.MayRunI .api ∧ s.Issued (.isReloading .api) ⟨0, 0⟩)
      ∧ (let s := held (.getCurrentPos .locked) 0 0
         s.MayRunI .locked ∧ s.Issued (.getCurrentPos .locked) ⟨0, 0⟩)
      ∧ let s := inIsr (.getLinePos .locked) 0 0
        s.MayRunI .locked ∧ s.Issued (.getLinePos .locked) ⟨0, 0⟩ :=
  ⟨⟨⟨rfl, rfl⟩, rfl, rfl⟩, ⟨.inr rfl, rfl, rfl⟩, .inr rfl, rfl, rfl⟩

/-- The last line that passes, in a build with checks. -/
theorem witness_GlobalSettersComplete :
    let s := api (.setLinePos .api) 0x7FF 0
    s.MayRunI .api ∧ s.Issued (.setLinePos .api) ⟨0x7FF, 0⟩ ∧ s.Passes (decide ((0x7FF : Word) ≤ 0x7FF)) :=
  ⟨⟨rfl, rfl⟩, ⟨rfl, rfl⟩, .inr (by decide)⟩

theorem witness_LayerGettersComplete :
    (let s := api (.isLayerEnabled .l2 .api) 0 0
     s.MayRunI .api ∧ s.Issued (.isLayerEnabled .l2 .api) ⟨0, 0⟩)
      ∧ let s := inIsr (.getFrameAddress .l1 .locked) 0 0
        s.MayRunI .locked ∧ s.Issued (.getFrameAddress .l1 .locked) ⟨0, 0⟩ :=
  ⟨⟨⟨rfl, rfl⟩, rfl, rfl⟩, .inr rfl, rfl, rfl⟩

theorem witness_LayerFlagCommandsComplete :
    (let s := api (.enablePalette .l2 .api) 0 0
     s.MayRunI .api ∧ s.Issued (.enablePalette .l2 .api) ⟨0, 0⟩)
      ∧ let s := held (.disableLayer .l1 .locked) 0 0
        s.MayRunI .locked ∧ s.Issued (.disableLayer .l1 .locked) ⟨0, 0⟩ :=
  ⟨⟨⟨rfl, rfl⟩, rfl, rfl⟩, .inr rfl, rfl, rfl⟩

/-- The last format that passes. -/
theorem witness_LayerValueSettersComplete :
    let s := api (.setPixelFormat .l1 .api) 7 0
    s.MayRunI .api ∧ s.Issued (.setPixelFormat .l1 .api) ⟨7, 0⟩ ∧ s.Passes (decide ((7 : Word) ≤ 7)) :=
  ⟨⟨rfl, rfl⟩, ⟨rfl, rfl⟩, .inr (by decide)⟩

/-- The last index; the longest palette; the empty one with a null pointer. -/
theorem witness_PaletteCommandsComplete :
    (let s := api (.setPaletteEntry .l2 .api) 255 0
     s.MayRunI .api ∧ s.Passes ((s.lay .l2).cr &&& 1 == 0) ∧ s.Issued (.setPaletteEntry .l2 .api) ⟨255, 0⟩
       ∧ s.Passes (decide ((255 : Word) < 256)))
      ∧ (let s := api (.setPalette .l2 .api) 0x20000140 256
         s.MayRunI .api ∧ s.Issued (.setPalette .l2 .api) ⟨0x20000140, 256⟩ ∧ s.Passes (decide ((256 : Word) ≤ 256))
           ∧ (0x20000140 : Word) ≠ 0 ∧ aligned4 0x20000140 = true)
      ∧ let s := api (.setPalette .l2 .api) 0 0
        s.Issued (.setPalette .l2 .api) ⟨0, 0⟩ ∧ s.Passes (decide ((0 : Word) ≤ 256)) :=
  ⟨⟨⟨rfl, rfl⟩, .inr (by decide +kernel), ⟨rfl, rfl⟩, .inr (by decide)⟩,
    ⟨⟨rfl, rfl⟩, ⟨rfl, rfl⟩, .inr (by decide), by decide, by decide⟩, ⟨rfl, rfl⟩, .inr (by decide)⟩

/-- The whole active window. -/
theorem witness_WindowCommandsComplete :
    (let s := api (.setWindow .l1 .api) 0x20000120 0
     s.MayRunI .api ∧ s.Issued (.setWindow .l1 .api) ⟨0x20000120, 0⟩ ∧ (0x20000120 : Word) ≠ 0 ∧ aligned4 0x20000120 = true
       ∧ s.Passes (windowOk s.activeWindow (windowAt s.mem 0x20000120)))
      ∧ (let s := api (.getWindow .l1 .api) 0x20000200 0
         s.MayRunI .api ∧ s.Issued (.getWindow .l1 .api) ⟨0x20000200, 0⟩ ∧ aligned4 0x20000200 = true)
      ∧ let s := api (.setInvalidWindow .l2 .api) 0 0
        s.Issued (.setInvalidWindow .l2 .api) ⟨0, 0⟩ ∧ s.Passes (windowOk s.activeWindow ⟨0, 0, 0, 0⟩) :=
  ⟨⟨⟨rfl, rfl⟩, ⟨rfl, rfl⟩, by decide, by decide, .inr (by decide +kernel)⟩, ⟨⟨rfl, rfl⟩, ⟨rfl, rfl⟩, by decide⟩,
    ⟨rfl, rfl⟩, .inr (by decide +kernel)⟩

/-- A frame as large as the screen. -/
theorem witness_FrameCommandsComplete :
    let s := api (.setFrame .l2 .api) 0x20000100 0
    s.MayRunI .api ∧ s.Issued (.setFrame .l2 .api) ⟨0x20000100, 0⟩ ∧ aligned4 0x20000100 = true ∧ s.cfg ≠ 0
      ∧ aligned4 s.cfg = true
      ∧ s.Passes (frameOk (s.mem.readLe s.cfg 2) (s.mem.readLe (s.cfg + 2) 2) (frameAt s.mem 0x20000100)) :=
  ⟨⟨rfl, rfl⟩, ⟨rfl, rfl⟩, by decide, by decide +kernel, by decide +kernel, .inr (by decide +kernel)⟩

theorem witness_GetLayerCompletes :
    let s := api (.getLayer .l1 .api) 0x20000200 0
    s.MayRunI .api ∧ s.Issued (.getLayer .l1 .api) ⟨0x20000200, 0⟩ ∧ (0x20000200 : Word) ≠ 0 ∧ (0x20000200 : Word) + 16 ≠ 0
      ∧ aligned4 0x20000200 = true :=
  ⟨⟨rfl, rfl⟩, ⟨rfl, rfl⟩, by decide⟩

/-- S1, and the default specification. -/
theorem witness_SetLayerCompletes :
    (let s := api (.setLayer .l2 .api) 0x20000180 0
     s.MayRunI .api ∧ s.Issued (.setLayer .l2 .api) ⟨0x20000180, 0⟩ ∧ specReadable s.mem 0x20000180 = true ∧ s.cfg ≠ 0
       ∧ aligned4 s.cfg = true ∧ s.Passes (specOk (s.mem.readLe s.cfg 2) (s.mem.readLe (s.cfg + 2) 2) s.activeWindow
         (s.lay .l2).cr (specAt s.mem 0x20000180)))
      ∧ let s := api (.setLayer .l2 .api) 0 0
        s.Issued (.setLayer .l2 .api) ⟨0, 0⟩ ∧ specReadable s.mem 0 = true
          ∧ s.Passes (specOk (s.mem.readLe s.cfg 2) (s.mem.readLe (s.cfg + 2) 2) s.activeWindow (s.lay .l2).cr
            (specAt s.mem 0)) :=
  ⟨⟨⟨rfl, rfl⟩, ⟨rfl, rfl⟩, by decide +kernel, by decide +kernel, by decide +kernel, .inr (by decide +kernel)⟩,
    ⟨rfl, rfl⟩, by decide +kernel, .inr (by decide +kernel)⟩

theorem witness_HelpersComplete :
    ((inIsr .bpp 7 0).Issued .bpp ⟨7, 0⟩ ∧ (inIsr .bpp 7 0).Passes (decide ((7 : Word) ≤ 7)))
      ∧ (api .toArgb8888 0 7).Issued .toArgb8888 ⟨0, 7⟩ ∧ (api .toArgb8888 0 7).Passes (decide ((7 : Word) ≤ 7)) :=
  ⟨⟨⟨rfl, rfl⟩, .inr (by decide)⟩, ⟨rfl, rfl⟩, .inr (by decide)⟩

theorem witness_InitCompletes :
    let s := { api .init 0 0 with drvState := .uninit }
    s.Issued .init ⟨0, 0⟩ ∧ s.Passes (s.drvState == .uninit) :=
  ⟨⟨rfl, rfl⟩, .inr rfl⟩

/-- Stopped, about to start with c1. -/
def aboutToStart : State := { api (.start .api) 0x20000000 0 with drvState := .stop }

theorem witness_StartCompletes :
    (aboutToStart.MayRunS .api ∧ aboutToStart.Issued (.start .api) ⟨0x20000000, 0⟩
      ∧ aboutToStart.Passes (aboutToStart.drvState == .stop))
      ∧ let d := configAt aboutToStart.mem 0x20000000
        specReadable aboutToStart.mem d.bgSpec = true ∧ specReadable aboutToStart.mem d.fgSpec = true ∧ timingsOk d = true
          ∧ specOk d.screenWidth d.screenHeight
            (aboutToStart.started 0x20000000 d (specAt aboutToStart.mem d.bgSpec) (specAt aboutToStart.mem d.fgSpec)).activeWindow
            (aboutToStart.lay .l1).cr (specAt aboutToStart.mem d.bgSpec) = true :=
  ⟨⟨⟨rfl, rfl⟩, ⟨rfl, rfl⟩, .inr rfl⟩, by decide +kernel⟩

theorem witness_StopCompletes :
    let s := held (.stop .locked) 0 0
    s.MayRunS .locked ∧ s.Issued (.stop .locked) ⟨0, 0⟩ ∧ s.Passes (s.drvState == .ready) :=
  ⟨.inr rfl, ⟨rfl, rfl⟩, .inr rfl⟩

theorem witness_StartReloadCompletes :
    let s := inIsr (.startReload .locked) 1 0
    s.MayRunI .locked ∧ s.Issued (.startReload .locked) ⟨1, 0⟩ ∧ s.Passes (s.drvState == .ready) :=
  ⟨.inr rfl, ⟨rfl, rfl⟩, .inr rfl⟩

/-- Immediate, and deferred in a build without the wait slot. -/
theorem witness_PolledReloadWaitCompletes :
    (let s := api (.reloadWait .api) 1 0
     s.MayRunS .api ∧ s.Issued (.reloadWait .api) ⟨1, 0⟩ ∧ s.Passes s.waiter.isNone ∧ s.Passes (s.drvState == .ready)
       ∧ (1 : Word) ≠ 0)
      ∧ let s := { api (.reloadWait .api) 0 0 with par := { Params.default with useWait := false } }
        s.MayRunS .api ∧ s.Issued (.reloadWait .api) ⟨0, 0⟩ ∧ s.Passes s.waiter.isNone ∧ s.Passes (s.drvState == .ready)
          ∧ s.par.useWait = false ∧ hasBits s.active.gcr 1 = true :=
  ⟨⟨⟨rfl, rfl⟩, ⟨rfl, rfl⟩, .inr rfl, .inr rfl, by decide⟩, ⟨rfl, rfl⟩, ⟨rfl, rfl⟩, .inr rfl, .inr rfl, rfl,
    by decide +kernel⟩

theorem witness_DeferredReloadWaitParks :
    let s := api (.reloadWait .api) 0 0
    s.MayRunS .api ∧ s.Issued (.reloadWait .api) ⟨0, 0⟩ ∧ s.Passes s.waiter.isNone ∧ s.Passes (s.drvState == .ready)
      ∧ s.par.useWait = true ∧ s.wakeOf s.self = none :=
  ⟨⟨rfl, rfl⟩, ⟨rfl, rfl⟩, .inr rfl, .inr rfl, rfl, rfl⟩

/-- Thread 0 asleep in RELOAD_WAIT, its message come. -/
def woken (c : Form) : State :=
  { boot with threads := [⟨true, some .ok, some (parkedCell c ⟨0, 0⟩ (some .wake)), [], []⟩] }

/-- The cell the statement names is the one RELOAD_WAIT parks with, and an agent that has it and its message goes on. -/
theorem witness_DeferredReloadWaitWakes :
    (([Form.api, Form.locked].all fun c =>
      seen (fun s => (s.threadAt 0).prog)
          (exec (.reloadWait c) (match c with | .api => api (.reloadWait c) 0 0 | .locked => held (.reloadWait c) 0 0))
        == some (some (parkedCell c ⟨0, 0⟩ (some .wake)))
      && seen results (exec (.reloadWait c) (woken c)) == some [.msg .ok]
      && (woken c).sched == [] && (woken c).irq == [] && (woken c).lockHolder == none
      && (woken c).curCell == some (parkedCell c ⟨0, 0⟩ (some .wake)) && (woken c).wakeOf (woken c).self == some .ok
      && (woken c).par.useWait)
    && wokenInIsr.sched == [] && wokenInIsr.lockHolder == none && wokenInIsr.par.useWait
    && wokenInIsr.curCell == some (parkedCell .locked ⟨0, 0⟩ (some .wake))
    && wokenInIsr.wakeOf wokenInIsr.self == some .ok) = true := by decide +kernel

/-- Free, owned by another, owned by the issuer, owned by nobody at a release. -/
theorem witness_MutexCommands :
    (let s := api .acquireBus 0 0
     s.Passes (s.ctx == .thread) ∧ s.par.useMutex = true ∧ s.Passes (s.drvState != .uninit) ∧ s.Issued .acquireBus ⟨0, 0⟩
       ∧ s.ltdcOwner = none)
      ∧ { api .acquireBus 0 0 with ltdcOwner := some (.thread 1) }.ltdcOwner ≠ none
      ∧ (let s := { api .releaseBus 0 0 with ltdcOwner := some (.thread 0) }
         s.Issued .releaseBus ⟨0, 0⟩ ∧ s.Passes (s.ltdcOwner == some s.self))
      ∧ (let s := api .releaseBus 0 0
         s.par.checks = true ∧ s.ltdcOwner ≠ some s.self)
      ∧ (let s := api .pnlAcquireBus 0 0
         s.Passes (s.pnlState != .absent) ∧ s.Issued .pnlAcquireBus ⟨0, 0⟩ ∧ s.pnlOwner = none)
      ∧ let s := api .pnlReleaseBus 0 0
        s.Issued .pnlReleaseBus ⟨0, 0⟩ ∧ s.pnlOwner ≠ some s.self :=
  ⟨⟨.inr rfl, rfl, .inr rfl, ⟨rfl, rfl⟩, rfl⟩, by decide +kernel, ⟨⟨rfl, rfl⟩, .inr rfl⟩, ⟨rfl, by decide +kernel⟩,
    ⟨.inr rfl, ⟨rfl, rfl⟩, rfl⟩, ⟨rfl, rfl⟩, by decide +kernel⟩

theorem witness_PanelLifecycleCompletes :
    (let s := { api .pnlObjectInit 0 0 with pnlState := .absent }
     s.Issued .pnlObjectInit ⟨0, 0⟩ ∧ s.Passes (s.pnlState == .absent))
      ∧ (let s := { api .pnlStart 0x200001C0 0 with pnlState := .stop }
         s.Passes (s.ctx == .thread) ∧ s.Issued .pnlStart ⟨0x200001C0, 0⟩ ∧ s.Passes (s.pnlState == .stop) ∧ (0x200001C0 : Word) ≠ 0
           ∧ aligned4 0x200001C0 = true)
      ∧ (let s := { api .pnlSelect 0 0 with pnlState := .ready }
         s.Passes (s.ctx == .thread) ∧ s.Issued .pnlSelect ⟨0, 0⟩ ∧ s.Passes (s.pnlState == .ready))
      ∧ let s := api .pnlUnselect 0 0
        s.Passes (s.ctx == .thread) ∧ s.Issued .pnlUnselect ⟨0, 0⟩ ∧ s.Passes (s.pnlState == .active) :=
  ⟨⟨⟨rfl, rfl⟩, .inr rfl⟩, ⟨.inr rfl, ⟨rfl, rfl⟩, .inr rfl, by decide, by decide⟩, ⟨.inr rfl, ⟨rfl, rfl⟩, .inr rfl⟩,
    .inr rfl, ⟨rfl, rfl⟩, .inr rfl⟩

theorem witness_PanelByteTransfersComplete :
    let s := api .pnlReadByte 0 0
    s.Passes (s.ctx == .thread) ∧ s.Passes (s.pnlState == .active) ∧ s.Issued .pnlReadByte ⟨0, 0⟩ :=
  ⟨.inr rfl, .inr rfl, rfl, rfl⟩

/-- One byte at the last address below the wrap; and no byte at a null pointer in a build without checks. -/
theorem witness_PanelChunksComplete :
    (let s := api .pnlWriteChunk 0xFFFFFFFF 1
     s.Passes (s.ctx == .thread) ∧ s.Passes (s.pnlState == .active) ∧ s.Passes (decide ((1 : Word) ≤ 1))
       ∧ s.Passes ((0xFFFFFFFF : Word) != 0) ∧ (0xFFFFFFFF : Word) ≠ 0 ∧ s.Issued .pnlWriteChunk ⟨0xFFFFFFFF, 1⟩)
      ∧ let s := unchecked (api .pnlReadChunk 0 0)
        s.Passes (s.ctx == .thread) ∧ s.Passes (s.pnlState == .active) ∧ s.Passes (decide ((1 : Word) ≤ 0)) ∧ s.Passes ((0 : Word) != 0)
          ∧ s.Issued .pnlReadChunk ⟨0, 0⟩ :=
  ⟨⟨.inr rfl, .inr rfl, .inr (by decide), .inr (by decide), by decide, rfl, rfl⟩, .inr rfl, .inr rfl, .inl rfl, .inl rfl, rfl,
    rfl⟩

/-- READY for what needs another state, STOP for what needs READY, a parked waiter; and the panel in each wrong state. -/
theorem witness_WrongStateFaults :
    (boot.par.checks = true ∧ (api .init 0 0).Issued .init ⟨0, 0⟩ ∧ (api .init 0 0).drvState ≠ .uninit)
      ∧ ((api (.start .api) 0 0).MayRunS .api ∧ (api (.start .api) 0 0).drvState ≠ .stop)
      ∧ (let s := { api (.startReload .api) 0 0 with drvState := .stop }
         s.MayRunI .api ∧ s.Issued (.startReload .api) ⟨0, 0⟩ ∧ s.drvState ≠ .ready)
      ∧ (let s := { api (.reloadWait .api) 0 0 with waiter := some (.thread 1) }
         s.MayRunS .api ∧ s.Issued (.reloadWait .api) ⟨0, 0⟩ ∧ s.waiter ≠ none)
      ∧ (let s := { api .acquireBus 0 0 with drvState := .uninit }
         s.ctx = .thread ∧ s.par.useMutex = true ∧ s.Issued .acquireBus ⟨0, 0⟩ ∧ s.drvState = .uninit)
      ∧ (let s := api .pnlStop 0 0
         s.Issued .pnlStop ⟨0, 0⟩ ∧ s.ctx = .thread ∧ s.pnlState ≠ .ready)
      ∧ (let s := { api .pnlAcquireBus 0 0 with pnlState := .absent }
         s.Issued .pnlAcquireBus ⟨0, 0⟩ ∧ s.ctx = .thread ∧ s.pnlState = .absent)
      ∧ let s := { api .pnlReadByte 0 0 with pnlState := .ready }
        s.Issued .pnlReadByte ⟨0, 0⟩ ∧ s.ctx = .thread ∧ s.pnlState ≠ .active :=
  ⟨⟨rfl, ⟨rfl, rfl⟩, by decide +kernel⟩, ⟨⟨rfl, rfl⟩, by decide +kernel⟩, ⟨⟨rfl, rfl⟩, ⟨rfl, rfl⟩, by decide +kernel⟩,
    ⟨⟨rfl, rfl⟩, ⟨rfl, rfl⟩, by decide +kernel⟩, ⟨rfl, rfl, ⟨rfl, rfl⟩, rfl⟩, ⟨⟨rfl, rfl⟩, rfl, by decide +kernel⟩,
    ⟨⟨rfl, rfl⟩, rfl, rfl⟩, ⟨rfl, rfl⟩, rfl, by decide +kernel⟩

/-- Clause (1), each part just beyond its bound: line 0x800, format 8, index 256, length 257, the window of V2.7.4, the frame
of V2.8.6, a frame of format 8; an enabled layer; null pointers; no configuration. -/
theorem witness_OperandFaults :
    ((api (.setLinePos .api) 0x800 0).MayRunI .api ∧ (api (.setLinePos .api) 0x800 0).Issued (.setLinePos .api) ⟨0x800, 0⟩
      ∧ (api (.setLinePos .api) 0x800 0).par.checks = true ∧ ¬(0x800 : Word) ≤ 0x7FF)
      ∧ ((api (.setPixelFormat .l1 .api) 8 0).Issued (.setPixelFormat .l1 .api) ⟨8, 0⟩ ∧ ¬(8 : Word) ≤ 7)
      ∧ ((withCr 1 (api (.setPalette .l2 .api) 0 300)).Issued (.setPalette .l2 .api) ⟨0, 300⟩
        ∧ ((withCr 1 (api (.setPalette .l2 .api) 0 300)).lay .l2).cr &&& 1 ≠ 0)
      ∧ ((api (.setPaletteEntry .l2 .api) 256 0).Issued (.setPaletteEntry .l2 .api) ⟨256, 0⟩
        ∧ ((api (.setPaletteEntry .l2 .api) 256 0).lay .l2).cr &&& 1 = 0 ∧ ¬(256 : Word) < 256)
      ∧ ((api (.setPalette .l2 .api) 0 257).Issued (.setPalette .l2 .api) ⟨0, 257⟩ ∧ ¬(257 : Word) ≤ 256)
      ∧ ((api (.setWindow .l1 .api) 0x20000128 0).Issued (.setWindow .l1 .api) ⟨0x20000128, 0⟩
        ∧ aligned4 0x20000128 = true ∧ windowOk boot.activeWindow (windowAt boot.mem 0x20000128) = false)
      ∧ (api (.getLayer .l1 .api) 0 0).Issued (.getLayer .l1 .api) ⟨0, 0⟩
      ∧ ({ api (.setFrame .l1 .api) 0x20000100 0 with cfg := 0 }.Issued (.setFrame .l1 .api) ⟨0x20000100, 0⟩
        ∧ { api (.setFrame .l1 .api) 0x20000100 0 with cfg := 0 }.cfg = 0)
      ∧ (api (.setFrame .l2 .api) 0x20000130 0).Issued (.setFrame .l2 .api) ⟨0x20000130, 0⟩
        ∧ (frameAt boot.mem 0x20000130).fmt ≤ 7
        ∧ frameOk (boot.mem.readLe boot.cfg 2) (boot.mem.readLe (boot.cfg + 2) 2) (frameAt boot.mem 0x20000130) = false :=
  ⟨⟨⟨rfl, rfl⟩, ⟨rfl, rfl⟩, rfl, by decide⟩, ⟨⟨rfl, rfl⟩, by decide⟩, ⟨⟨rfl, rfl⟩, by decide +kernel⟩,
    ⟨⟨rfl, rfl⟩, by decide +kernel, by decide⟩, ⟨⟨rfl, rfl⟩, by decide⟩, ⟨⟨rfl, rfl⟩, by decide, by decide +kernel⟩,
    ⟨rfl, rfl⟩, ⟨⟨rfl, rfl⟩, rfl⟩, ⟨rfl, rfl⟩, by decide +kernel, by decide +kernel⟩

/-- A frame and a layer specification of format 8, and the default specification with no configuration held. -/
theorem witness_OperandFaults_formats :
    (let s := { api (.setFrame .l2 .api) 0x20000130 0 with mem := boot.mem.set 0x2000013C 8 }
     s.MayRunI .api ∧ s.Issued (.setFrame .l2 .api) ⟨0x20000130, 0⟩ ∧ aligned4 0x20000130 = true ∧ s.cfg ≠ 0
       ∧ ¬(frameAt s.mem 0x20000130).fmt ≤ 7)
      ∧ (let s := { api (.setLayer .l2 .api) 0x20000180 0 with mem := boot.mem.set 0x2000018C 8 }
         s.MayRunI .api ∧ s.Issued (.setLayer .l2 .api) ⟨0x20000180, 0⟩ ∧ aligned4 0x20000180 = true
           ∧ (0x20000180 : Word) + 16 ≠ 0 ∧ s.cfg ≠ 0 ∧ ¬(specAt s.mem 0x20000180).frame.fmt ≤ 7)
      ∧ let s := { api (.setLayer .l2 .api) 0 0 with cfg := 0 }
        s.Issued (.setLayer .l2 .api) ⟨0, 0⟩ ∧ s.cfg = 0 :=
  ⟨⟨⟨rfl, rfl⟩, ⟨rfl, rfl⟩, by decide +kernel⟩, ⟨⟨rfl, rfl⟩, ⟨rfl, rfl⟩, by decide +kernel⟩, ⟨rfl, rfl⟩, rfl⟩

/-- The specification of 95_test_vectors.md at 0x20000180 with one field changed, or a palette at 0x20000140 of 257 words. -/
def specMem (k : Nat) : Mem :=
  match k with
  | 0 => boot.mem.set 0x2000018C 8
  | 1 => boot.mem.set 0x20000184 0xE1
  | 2 => boot.mem.set 0x20000192 0xE0
  | 3 => (boot.mem.set 0x200001A4 0x40).set 0x200001A5 0x01 |>.set 0x200001A7 0x20
  | _ => ((boot.mem.set 0x200001A4 0x40).set 0x200001A5 0x01 |>.set 0x200001A7 0x20 |>.set 0x200001A2 0x01).set 0x200001A3 0x01

/-- What fails first in the specification of `specMem k`. -/
def specCode (k : Nat) : FaultCode := [.range, .geometry, .window, .layerEnabled].getD k .range

/-- The specification faults of SET_LAYER, and of START's first and second layer: format 8, a frame one column wider than the
screen, a window one column wider, a palette for an enabled layer, and one of 257 words. -/
theorem witness_OperandFaults_specs :
    (([0, 1, 2, 3, 4].all fun k =>
      let s := { withCr (if k = 3 then 1 else 0) (api (.setLayer .l2 .api) 0x20000180 0) with mem := specMem k }
      recordReadable 0x20000180 && s.cfg != 0 && aligned4 s.cfg && s.curCell == some ⟨0x013F, ⟨0x20000180, 0⟩, 0, [], none⟩
        && (s.specFault .l2 (s.mem.readLe s.cfg 2) (s.mem.readLe (s.cfg + 2) 2) (specAt s.mem 0x20000180)).map (·.1)
          == some (specCode k)
        && seen code (exec (.setLayer .l2 .api) s) == some (some (specCode k)))
    && ([24, 28].all fun off => [0, 1, 2, 3, 4].all fun k =>
      let s0 := { api (.start .api) 0x20000000 0 with drvState := .stop }
      let m := (((specMem k).set (0x20000000 + off) 0x80).set (0x20000001 + off) 0x01).set (0x20000003 + off) 0x20
      let s := { s0 with
        mem := m
        shadow := { s0.shadow with
          l1 := { s0.shadow.l1 with cr := if k = 3 then 1 else 0 }, l2 := { s0.shadow.l2 with cr := if k = 3 then 1 else 0 } } }
      let d := configAt s.mem 0x20000000
      let fault1 := (s.timed 0x20000000 d).specFault .l1 d.screenWidth d.screenHeight (specAt s.mem d.bgSpec)
      let fault2 := ((s.timed 0x20000000 d).putSpec .l1 (specAt s.mem d.bgSpec)).specFault .l2 d.screenWidth d.screenHeight
        (specAt s.mem d.fgSpec)
      timingsOk d && recordReadable d.bgSpec && recordReadable d.fgSpec && specReadable s.mem d.bgSpec
        && (if off = 24 then fault1.map (·.1) == some (specCode k) else fault1.isNone && fault2.map (·.1) == some (specCode k))
        && seen code (exec (.start .api) s) == some (some (specCode k)))
    && (let s := { api (.setInvalidWindow .l2 .api) 0 0 with activeWindow := ⟨1, 0, 1, 0⟩ }
        !windowOk s.activeWindow ⟨0, 0, 0, 0⟩)) = true := by decide +kernel

/-- Clauses (2) to (4): format 8; a null configuration; a sync width of 0 and one of 4097; an empty chunk and a null one. -/
theorem witness_OperandFaults_others :
    ((api .bpp 8 0).Issued .bpp ⟨8, 0⟩ ∧ ¬(8 : Word) ≤ 7) ∧ ((api .toArgb8888 0 8).Issued .toArgb8888 ⟨0, 8⟩)
      ∧ (let s := { api (.start .api) 0 0 with drvState := .stop }
         s.par.checks = true ∧ s.MayRunS .api ∧ s.Issued (.start .api) ⟨0, 0⟩ ∧ s.drvState = .stop)
      ∧ (let s := { api (.start .api) 0x20000000 0 with drvState := .stop, mem := boot.mem.set 0x20000004 0 }
         s.MayRunS .api ∧ s.Issued (.start .api) ⟨0x20000000, 0⟩ ∧ aligned4 0x20000000 = true
           ∧ timingsOk (configAt s.mem 0x20000000) = false)
      ∧ timingsOk (configAt ((boot.mem.set 0x20000004 1).set 0x20000005 0x10) 0x20000000) = false
      ∧ (let s := { api .pnlStart 0 0 with pnlState := .stop }
         s.ctx = .thread ∧ s.Issued .pnlStart ⟨0, 0⟩ ∧ s.pnlState = .stop)
      ∧ ((api .pnlWriteChunk 0 0).Issued .pnlWriteChunk ⟨0, 0⟩ ∧ (api .pnlWriteChunk 0 0).pnlState = .active)
      ∧ (api .pnlReadChunk 0 1).Issued .pnlReadChunk ⟨0, 1⟩ ∧ (1 : Word) ≠ 0 :=
  ⟨⟨⟨rfl, rfl⟩, by decide⟩, ⟨rfl, rfl⟩, ⟨rfl, ⟨rfl, rfl⟩, ⟨rfl, rfl⟩, rfl⟩,
    ⟨⟨rfl, rfl⟩, ⟨rfl, rfl⟩, by decide +kernel⟩, by decide +kernel, ⟨rfl, ⟨rfl, rfl⟩, rfl⟩, ⟨⟨rfl, rfl⟩, rfl⟩, ⟨rfl, rfl⟩,
    by decide⟩

theorem witness_BadPointers :
    (let s := unchecked (api (.setWindow .l1 .api) 0 0)
     s.MayRunI .api ∧ s.Issued (.setWindow .l1 .api) ⟨0, 0⟩ ∧ s.par.checks = false)
      ∧ (let s := api (.getLayer .l1 .api) 0x20000121 0
         s.MayRunI .api ∧ s.Issued (.getLayer .l1 .api) ⟨0x20000121, 0⟩ ∧ aligned4 0x20000121 = false)
      ∧ (let s := unchecked (api (.setPalette .l2 .api) 0 1)
         s.MayRunI .api ∧ s.Issued (.setPalette .l2 .api) ⟨0, 1⟩ ∧ (1 : Word) ≠ 0 ∧ s.par.checks = false)
      ∧ (let s := api (.setPalette .l2 .api) 2 256
         s.MayRunI .api ∧ s.Issued (.setPalette .l2 .api) ⟨2, 256⟩ ∧ s.Passes ((s.lay .l2).cr &&& 1 == 0)
           ∧ s.Passes (decide ((256 : Word) ≤ 256)) ∧ aligned4 2 = false)
      ∧ (api (.setLayer .l2 .api) 3 0).Issued (.setLayer .l2 .api) ⟨3, 0⟩ ∧ aligned4 3 = false :=
  ⟨⟨⟨rfl, rfl⟩, ⟨rfl, rfl⟩, rfl⟩, ⟨⟨rfl, rfl⟩, ⟨rfl, rfl⟩, by decide⟩, ⟨⟨rfl, rfl⟩, ⟨rfl, rfl⟩, by decide, rfl⟩,
    ⟨⟨rfl, rfl⟩, ⟨rfl, rfl⟩, .inr (by decide +kernel), .inr (by decide), by decide⟩, ⟨rfl, rfl⟩, by decide⟩

/-- No configuration held; a record whose window is at address 0; an unaligned palette of one word. -/
theorem witness_BadPointers_layers :
    (let s := unchecked { api (.setFrame .l1 .api) 0x20000100 0 with cfg := 0 }
     s.par.checks = false ∧ s.cfg = 0 ∧ s.Issued (.setFrame .l1 .api) ⟨0x20000100, 0⟩ ∧ aligned4 0x20000100 = true)
      ∧ ((api (.setLayer .l1 .api) 0 0).Issued (.setLayer .l1 .api) ⟨0, 0⟩ ∧ recordReadable 0 = true)
      ∧ (api (.getLayer .l1 .api) 0xFFFFFFF0 0).Issued (.getLayer .l1 .api) ⟨0xFFFFFFF0, 0⟩ ∧ (0xFFFFFFF0 : Word) + 16 = 0
      ∧ let s := { api (.setLayer .l2 .api) 0x20000180 0 with
          mem := (boot.mem.set 0x200001A2 1).set 0x200001A4 2 }
        s.Issued (.setLayer .l2 .api) ⟨0x20000180, 0⟩ ∧ recordReadable 0x20000180 = true
          ∧ s.Passes (specOk (s.mem.readLe s.cfg 2) (s.mem.readLe (s.cfg + 2) 2) s.activeWindow (s.lay .l2).cr
            (specAt s.mem 0x20000180))
          ∧ (specAt s.mem 0x20000180).palLen ≠ 0 ∧ aligned4 (specAt s.mem 0x20000180).palPtr = false :=
  ⟨⟨rfl, rfl, ⟨rfl, rfl⟩, by decide⟩, ⟨⟨rfl, rfl⟩, by decide⟩, ⟨rfl, rfl⟩, by decide, ⟨rfl, rfl⟩, by decide,
    .inr (by decide +kernel), by decide +kernel⟩

/-- START, PNL_START and the chunk commands. -/
theorem witness_BadPointers_others :
    (let s := unchecked { api (.start .api) 0 0 with drvState := .stop }
     s.MayRunS .api ∧ s.Issued (.start .api) ⟨0, 0⟩ ∧ s.Passes (s.drvState == .stop) ∧ s.par.checks = false)
      ∧ (let s := { api (.start .api) 1 0 with drvState := .stop }
         s.MayRunS .api ∧ s.Issued (.start .api) ⟨1, 0⟩ ∧ s.Passes (s.drvState == .stop) ∧ aligned4 1 = false)
      ∧ (let s := { api .pnlStart 1 0 with pnlState := .stop }
         s.Issued .pnlStart ⟨1, 0⟩ ∧ s.Passes (s.ctx == .thread) ∧ s.Passes (s.pnlState == .stop))
      ∧ (let s := unchecked (api .pnlWriteChunk 0 1)
         s.Issued .pnlWriteChunk ⟨0, 1⟩ ∧ s.par.checks = false)
      ∧ let s := unchecked (api .pnlReadChunk 0 2)
        s.Issued .pnlReadChunk ⟨0, 2⟩ ∧ s.par.checks = false ∧ (2 : Word) ≠ 0 :=
  ⟨⟨⟨rfl, rfl⟩, ⟨rfl, rfl⟩, .inr rfl, rfl⟩, ⟨⟨rfl, rfl⟩, ⟨rfl, rfl⟩, .inr rfl, by decide⟩, ⟨⟨rfl, rfl⟩, .inr rfl, .inr rfl⟩,
    ⟨⟨rfl, rfl⟩, rfl⟩, ⟨rfl, rfl⟩, rfl, by decide⟩

theorem witness_MemoryUnchanged :
    Instr.writesMemory (.setWindow .l1 .api) = false
      ∧ ∃ t, exec (.setWindow .l1 .api) (api (.setWindow .l1 .api) 0x20000120 0) = .next t :=
  ⟨rfl, next_of_seen (f := fun _ => true) (v := true) (by decide +kernel)⟩

/-- The bytes next to the record: before it, after it, and the padding byte of a layer. -/
theorem witness_RecordFrame :
    (∃ t, exec (.getLayer .l1 .api) (api (.getLayer .l1 .api) 0x20000200 0) = .next t)
      ∧ inBytes 0x20000200 48 0x200001FF = false ∧ inBytes 0x20000200 48 0x20000230 = false
      ∧ inBytes 0x20000200 48 0x20000221 = true :=
  ⟨next_of_seen (f := fun _ => true) (v := true) (by decide +kernel), by decide⟩

theorem witness_PanelAndLtdcApart :
    (Instr.start .api).isPanel = false ∧ Instr.pnlObjectInit.isPanel = true
      ∧ (∃ t, exec (.startReload .api) (api (.startReload .api) 0 0) = .next t)
      ∧ ∃ t, exec .pnlWriteByte (api .pnlWriteByte 1 0) = .next t :=
  ⟨by decide, by decide, next_of_seen (f := fun _ => true) (v := true) (by decide +kernel),
    next_of_seen (f := fun _ => true) (v := true) (by decide +kernel)⟩

theorem witness_ShadowWritesAreInvisible :
    Instr.reloads (.setLayer .l1 .api) = false
      ∧ ∃ t, exec (.setLayer .l1 .api) (api (.setLayer .l1 .api) 0x20000180 0) = .next t :=
  ⟨rfl, next_of_seen (f := fun _ => true) (v := true) (by decide +kernel)⟩

theorem witness_DriverStatePath :
    (api (.reloadWait .api) 1 0).curCell = some ⟨5, ⟨1, 0⟩, 0, [], none⟩
      ∧ ∃ t, exec (.reloadWait .api) (api (.reloadWait .api) 1 0) = .next t :=
  ⟨by decide +kernel, next_of_seen (f := fun _ => true) (v := true) (by decide +kernel)⟩

end Sys2Proof.Tests
end

section
/-! PROOFS. O6: a step runs the decoded command of the agent that moves (R20, R36, R459, R465). `step_thread` and
`step_handler` say whose move a step is; here is what that agent's move is. -/

namespace Sys2Proof.Machine

variable {s : State} {i : Instr}

/-- A word that decodes runs its row's meaning (R154). -/
theorem execWord_of_decode {w : CmdWord} (h : decode w = .instr i) : s.execWord w = exec i s := by
  simp only [State.execWord, h]

/-- A thread with a command under way goes on with it. -/
theorem runThread_underway {c : Cell} (hc : (s.threadAt s.cur).prog = some c) (h : decode c.word = .instr i) :
    s.runThread = exec i s := by
  simp only [State.runThread, hc, execWord_of_decode h]

/-- An IDLE thread issues the next command of its program (R31). -/
theorem runThread_issue {j : Issue} {rest : List Item} (hc : (s.threadAt s.cur).prog = none)
    (hp : (s.threadAt s.cur).program = .cmd j :: rest) (h : decode j.word = .instr i) :
    s.runThread = exec i (s.load j rest) := by
  simp only [State.runThread, hc, hp, execWord_of_decode h]

section Handler

variable {a : Activation} {below : List Activation}

/-- A handler that waits for no callback goes on with its own word. -/
theorem runHandler_self (hc : a.bodyCell = none) (hb : a.body = []) (h : decode a.cell.word = .instr i) :
    s.runHandler a below = exec i s := by
  simp only [State.runHandler, hc, hb, execWord_of_decode h]

/-- A callback's command under way goes on (R465). -/
theorem runHandler_underway {c : Cell} (hc : a.bodyCell = some c) (h : decode c.word = .instr i) :
    s.runHandler a below = exec i s := by
  simp only [State.runHandler, hc, execWord_of_decode h]

/-- A callback's body issues its next command (R465). -/
theorem runHandler_issue {j : Issue} {more : List Issue} (hc : a.bodyCell = none) (hb : a.body = j :: more)
    (h : decode j.word = .instr i) :
    s.runHandler a below
      = exec i { s with irq := { a with body := more, bodyCell := some j.fresh } :: below } := by
  simp only [State.runHandler, hc, hb, execWord_of_decode h]

end Handler

/-- Settles O6: `step_thread` and `step_handler` give the move, the lemmas above the command it runs. -/
theorem stepRunsTheDecodedCommand : Obligations.StepRunsTheDecodedCommand := by
  refine ⟨?_, ?_, ?_, ?_, ?_⟩
  · intro s t c i hm hc hd
    rw [step_thread hm, runThread_underway (s := s.switchTo t) hc hd]
  · intro s t w o rest i hm hc hp hd
    rw [step_thread hm, runThread_issue (s := s.switchTo t) hc hp hd]
    rfl
  · intro s a below i hm hc hb hd
    rw [step_handler hm, runHandler_self hc hb hd]
  · intro s a below c i hm hc hd
    rw [step_handler hm, runHandler_underway hc hd]
  · intro s a below w o more i hm hc hb hd
    rw [step_handler hm, runHandler_issue hc hb hd]
    rfl

end Sys2Proof.Machine
end

section
/-! PROOFS. O25: what a register write does (R15, R40, R46, R49, R64, R67). The layer registers go through two laws of a
block, a cell read after a write to the same and to another register. -/

namespace Sys2Proof.Machine

/-- A block's cell read after a write to it; CLUTWR has no cell. -/
theorem LayerRegs.get_put_same (f : LayerRegs) (v : Word) {q : LReg} (h : q ≠ .clutwr) : (f.put v q).get q = v := by
  cases q with
  | clutwr => exact absurd rfl h
  | _ => rfl

/-- A block's cell read after a write to another one. -/
theorem LayerRegs.get_put_other (f : LayerRegs) (v : Word) {q q' : LReg} (h : q' ≠ q) : (f.put v q).get q' = f.get q' := by
  cases q <;> cases q' <;> first | rfl | exact absurd rfl h

/-- A register without read-only bits stores the value cut to its writable bits. -/
theorem stored_zero (w old v : Word) : stored 0 w old v = v &&& w := by simp [stored]

variable {s : State} {l : Layer} {q : LReg} {v : Word}

/-- A write to a layer register but CLUTWR replaces one cell of that layer's shadow block. -/
theorem regWrite_lay (h : q ≠ .clutwr) :
    s.regWrite (.lay l q) v = s.putLayer l ((s.lay l).put (v &&& q.writableMask) q) := by
  simp only [State.regWrite, State.writeLayerReg, if_neg h, RegFile.writeLayer, stored_zero]
  rfl

theorem regRead_lay : s.regRead (.lay l q) = (s.lay l).get q := rfl

@[simp] theorem State.lay_putLayer_other (r : LayerRegs) {l' : Layer} (h : l' ≠ l) : (s.putLayer l r).lay l' = s.lay l' :=
  RegFile.layer_setLayer_other _ _ h.symm

/-- CLUTWR is write-only (R64). -/
theorem regRead_clutwr : s.regRead (.lay l .clutwr) = 0 := rfl

@[simp] theorem Clut.layer_setLayer (c : Clut) (p : Vector Rgb Config.clutLen) : (c.setLayer l p).layer l = p := by
  cases l <;> rfl

theorem clutSlot_eq : clutSlot v = (v >>> 24).toNat := by
  simp only [clutSlot, BitVec.extractLsb'_toNat, BitVec.toNat_ushiftRight]
  have := v.isLt
  exact Nat.mod_eq_of_lt (by rw [Nat.shiftRight_eq_div_pow]; omega)

theorem clutColour_eq : clutColour v = v.truncate 24 := by
  simp [clutColour, BitVec.truncate_eq_setWidth, BitVec.setWidth_eq_extractLsb']

/-- A palette slot after a write to CLUTWR: the one its high byte names takes the colour (R64). -/
theorem writeClut_getElem {j : Nat} (h : j < 256) :
    ((s.writeClut l v).clutShadow.layer l)[j]'h
      = if (v >>> 24).toNat = j then v.truncate 24 else (s.clutShadow.layer l)[j]'h := by
  simp only [State.writeClut, Clut.layer_setLayer, clutSlot_eq, clutColour_eq]
  exact Vector.getElem_setIfInBounds h

/-- Settles O25: a layer register by the two laws of a block, CLUTWR by its slots, SRCR and ICR as the model writes them. -/
theorem registerWrites : Obligations.RegisterWrites := by
  intro s l v
  refine ⟨fun q hq => ?_, regWrite_srcr s v, regWrite_icr s v, rfl, regRead_clutwr, fun j h => writeClut_getElem h, rfl⟩
  simp only [regWrite_lay hq, regRead_lay, State.lay_putLayer]
  refine ⟨LayerRegs.get_put_same _ _ hq, rfl, fun q' h => LayerRegs.get_put_other _ _ h, fun l' q' h => ?_⟩
  rw [State.lay_putLayer_other _ h]

end Sys2Proof.Machine
end

section
/-! PROOFS. The core each command dispatches to, as one table, so that a fact about every command is a fact about the table's
rows and one run of the dispatch prologue (R145, R154). -/

namespace Sys2Proof

open Machine

/-- The pseudocode a command's row dispatches to, from its operands and the build's USE_WAIT (R145, R154). The two handler
words dispatch to none (R457). -/
def Instr.coreOf (w : Bool) (o : Operands) : Instr → Machine.Core
  | .init => initCore
  | .start _ => startCore o.x
  | .stop _ => stopCore
  | .isReloading _ => isReloadingCore
  | .startReload _ => startReloadCore o.x
  | .reloadWait _ => reloadWaitCore w o.x
  | .acquireBus => acquireBusCore
  | .releaseBus => releaseBusCore
  | .getGlobalFlags _ => getGlobalFlagsCore
  | .setGlobalFlags _ => setGlobalFlagsCore o.x
  | .getClearColor _ => getClearColorCore
  | .setClearColor _ => setClearColorCore o.x
  | .getLinePos _ => getLinePosCore
  | .setLinePos _ => setLinePosCore o.x
  | .getCurrentPos _ => getCurrentPosCore
  | .getEnableFlags l _ => getEnableFlagsCore l
  | .setEnableFlags l _ => setEnableFlagsCore l o.x
  | .isLayerEnabled l _ => isLayerEnabledCore l
  | .enableLayer l _ => enableLayerCore l
  | .disableLayer l _ => disableLayerCore l
  | .getPixelFormat l _ => getPixelFormatCore l
  | .setPixelFormat l _ => setPixelFormatCore l o.x
  | .getKeyColor l _ => getKeyColorCore l
  | .setKeyColor l _ => setKeyColorCore l o.x
  | .isKeyingEnabled l _ => isKeyingEnabledCore l
  | .enableKeying l _ => enableKeyingCore l
  | .disableKeying l _ => disableKeyingCore l
  | .getConstAlpha l _ => getConstAlphaCore l
  | .setConstAlpha l _ => setConstAlphaCore l (low8 o.x)
  | .getDefaultColor l _ => getDefaultColorCore l
  | .setDefaultColor l _ => setDefaultColorCore l o.x
  | .getBlending l _ => getBlendingCore l
  | .setBlending l _ => setBlendingCore l o.x
  | .setPaletteEntry l _ => setPaletteEntryCore l o.x o.y
  | .setPalette l _ => setPaletteCore l o.x o.y
  | .isPaletteEnabled l _ => isPaletteEnabledCore l
  | .enablePalette l _ => enablePaletteCore l
  | .disablePalette l _ => disablePaletteCore l
  | .getWindow l _ => getWindowCore l o.x
  | .setWindow l _ => setWindowCore l o.x
  | .setInvalidWindow l _ => setInvalidWindowCore l
  | .getFrame l _ => getFrameCore l o.x
  | .setFrame l _ => setFrameCore l o.x
  | .getFrameAddress l _ => getFrameAddressCore l
  | .setFrameAddress l _ => setFrameAddressCore l o.x
  | .getLayer l _ => getLayerCore l o.x
  | .setLayer l _ => setLayerCore l o.x
  | .bpp => bppCore o.x
  | .toArgb8888 => toArgbCore o.x o.y
  | .fromArgb8888 => fromArgbCore o.x o.y
  | .pnlObjectInit => pnlObjectInitCore
  | .pnlStart => pnlStartCore o.x
  | .pnlStop => pnlStopCore
  | .pnlAcquireBus => pnlAcquireBusCore
  | .pnlReleaseBus => pnlReleaseBusCore
  | .pnlSelect => pnlSelectCore
  | .pnlUnselect => pnlUnselectCore
  | .pnlWriteCommand => pnlWriteCommandCore (low8 o.x)
  | .pnlWriteByte => pnlWriteByteCore (low8 o.x)
  | .pnlReadByte => pnlReadByteCore
  | .pnlWriteChunk => pnlWriteChunkCore o.x o.y
  | .pnlReadChunk => pnlReadChunkCore o.x o.y
  | .eventIrq => fun ret => ret .unit
  | .errorIrq => fun ret => ret .unit

end Sys2Proof

namespace Sys2Proof.Machine

/-- A command's meaning is its class's dispatch of its core (R145, R154). -/
theorem exec_eq_command {i : Instr} {cl : CmdClass} (s : State) (h : i.cls = some cl) :
    exec i s = command i cl (fun o => i.coreOf s.par.useWait o) s := by
  cases i <;> cases h <;> rfl

end Sys2Proof.Machine
end

section
/-! PROOFS. O14: an api form waits at its lock (R36, R143). -/

namespace Sys2Proof.Machine

/-- Every command with a class is legal for software in every build, but the two of the mutex (R146 e, f). -/
theorem wellFormed_of_cls {i : Instr} {cl : CmdClass} (b : Bool) (h : i.cls = some cl) (ha : i ≠ .acquireBus)
    (hr : i ≠ .releaseBus) : i.wellFormed true b = true := by
  have hirq : i ≠ .eventIrq ∧ i ≠ .errorIrq := by constructor <;> rintro rfl <;> cases h
  simp [Instr.wellFormed, Instr.softwareMayIssue, Instr.presentIn, ha, hr, hirq]

/-- The commands with two forms are legal for software in every build (R146 e, f). -/
theorem wellFormed_of_form {i : Instr} {c : Form} (b : Bool) (h : i.cls = some (.intSafe c) ∨ i.cls = some (.schedLocked c)) :
    i.wellFormed true b = true := by
  rcases h with h | h <;> exact wellFormed_of_cls b h (by rintro rfl; cases h) (by rintro rfl; cases h)

/-- A class whose api form opens a critical section is S or I (R143, R145). -/
theorem takesLock_iff {cl : CmdClass} : cl.takesLock = true ↔ cl = .intSafe .api ∨ cl = .schedLocked .api := by
  rcases cl with _ | _ | _ | (_ | _) | (_ | _) <;> simp [CmdClass.takesLock]

/-- The classes whose api form opens a critical section check for THREAD and take the lock before their core (R143, R154). -/
theorem dispatch_takesLock {i : Instr} {cl : CmdClass} {core : Core} (h : cl.takesLock = true) :
    dispatch i cl core = decodeStep i (ctxCheck (· == .thread) (apiWrap core)) := by
  rcases takesLock_iff.1 h with rfl | rfl <;> rfl

/-- Settles O14: decode, context check, and a hold at `lock()`. -/
theorem apiFormWaitsForTheLock : Obligations.ApiFormWaitsForTheLock := by
  intro i cl o s hi hcl htl hc hl
  have hw : i.wellFormed true s.par.useMutex = true :=
    wellFormed_of_form _ ((takesLock_iff.1 htl).imp (fun e => e ▸ hcl) fun e => e ▸ hcl)
  rw [exec_eq_command s hcl, command_issued hi, dispatch_takesLock htl, run_decodeStep hi.1 hw, ctxCheck,
    run_check_pass hi.1 (.inr (by simp [hc])), apiWrap, run_lockStep_held hi.1 hc hl]
  rfl

end Sys2Proof.Machine
end

section
/-! PROOFS. O60: ENABLE_LAYER in micro-steps (R8, R20, R106, R420). What a boundary does when the schedule names the running
agent, at once or after a commit, and where a command goes on from a progress cell past its prologue. -/

namespace Sys2Proof.Machine

variable {s : State} {c : Cell} {q : List Slot}

/-- The schedule names the running agent: it takes its micro-step. -/
theorem turn_go (h : s.sched = .go :: q) : s.turn = .go { s with sched := q } := by simp only [State.turn, h, settle]

/-- A commit is scheduled before the running agent's micro-step. -/
theorem turn_commit_go (h : s.sched = .raster .commit :: .go :: q) (hc : s.commitEnabled = true) :
    s.turn = .go { s.commit with sched := q } := by
  simp only [State.turn, h, settle, State.rasterStep, hc, if_true]

/-- A register read, from the state its boundary leaves. -/
theorem run_rd_turn {s' : State} {r : Reg} {k : Word → Prog} (h : s.turn = .go s') :
    run (rd r k) c s = run (k (s'.regRead r)) (c.push (s'.regRead r)) (s'.afterRead r) := by
  simp only [rd, run, h]

/-- A register write, from the state its boundary leaves. -/
theorem run_wr_turn {s' : State} {r : Reg} {v : Word} {k : Prog} (h : s.turn = .go s') :
    run (wr r v k) c s = run k (c.push 0) (s'.regWrite r v) := by
  simp only [wr, act, run, h]

/-- A command under way runs what its cell's log leaves of its pseudocode (R31). -/
theorem command_resumed {i : Instr} {cl : CmdClass} {core : Operands → Core} (h : s.curCell = some c) (hw : c.wait = none) :
    command i cl core s = run ((dispatch i cl (core c.ops)).after c.log.reverse) c s := by
  have hc : s.cellOf (encode i) = c := by
    simp only [State.cellOf, h]
    cases c
    cases hw
    rfl
  simp only [command, State.resume, hc]

variable {l : Layer} {o : Operands}

/-- ENABLE_LAYER's locked form past its prologue: its core is still to run. -/
theorem enableLayer_atRead (h : s.curCell = some ⟨encode (.enableLayer l .locked), o, 2, [0, 0], none⟩) :
    exec (.enableLayer l .locked) s
      = run (enableLayerCore l .done) ⟨encode (.enableLayer l .locked), o, 2, [0, 0], none⟩ s := by
  rw [exec_eq_command s rfl, command_resumed h rfl]
  rfl

/-- ENABLE_LAYER's locked form past its read of `v`: its write is still to run. -/
theorem enableLayer_atWrite {v : Word} (h : s.curCell = some ⟨encode (.enableLayer l .locked), o, 3, [v, 0, 0], none⟩) :
    exec (.enableLayer l .locked) s
      = run (wr (.lay l .cr) (v ||| 1) (.done .unit)) ⟨encode (.enableLayer l .locked), o, 3, [v, 0, 0], none⟩ s := by
  rw [exec_eq_command s rfl, command_resumed h rfl]
  rfl

/-- Settles O60: the read by `run_one_micro`, the write by its boundary, and both with the commit's boundary between them. -/
theorem enableLayerInMicroSteps : Obligations.EnableLayerInMicroSteps := by
  intro l o s q
  refine ⟨fun hs hc => ?_, fun v hs hc => ?_, fun hs he hc => ?_⟩
  · rw [enableLayer_atRead hc]
    exact run_one_micro (s' := { s with sched := .pause :: q }) hs rfl rfl rfl
  · rw [enableLayer_atWrite hc, run_wr_turn (turn_go hs)]
    rfl
  · rw [enableLayer_atRead hc, enableLayerCore, setCrBits, run_rd_turn (turn_go hs)]
    exact run_wr_turn (turn_commit_go rfl he)

end Sys2Proof.Machine
end

section
/-! PROOFS. What the pseudocode of the LTDC's accessors keeps: every property of the state that register reads and writes
keep. One lemma per subroutine, for every such property, so that each frame statement uses them with its own. -/

namespace Sys2Proof.Machine

/-- What a register access does keeps `P` (R15). -/
structure RegStable (P : State → Prop) : Prop where
  afterRead : ∀ s r, P s → P (s.afterRead r)
  regWrite : ∀ s r v, P s → P (s.regWrite r v)

variable {P : State → Prop}

theorem RegStable.rd (hR : RegStable P) {r : Reg} {k : Word → Prog} (hk : ∀ v, (k v).Keeps P) : (rd r k).Keeps P :=
  keeps_rd (fun s => hR.afterRead s r) hk

theorem RegStable.wr (hR : RegStable P) {r : Reg} {v : Word} {k : Prog} (hk : k.Keeps P) : (wr r v k).Keeps P :=
  keeps_wr (fun s => hR.regWrite s r v) hk

-- ==== one register ====

/-- A core that reads a register and answers from it. -/
theorem RegStable.getter (hR : RegStable P) {r : Reg} {f : Word → ResultVal} :
    Core.Keeps P fun ret => Machine.rd r fun v => ret (f v) :=
  fun _ hk => hR.rd fun _ => hk _

/-- A core that writes a register. -/
theorem RegStable.setter (hR : RegStable P) {r : Reg} {v : Word} : Core.Keeps P fun ret => Machine.wr r v (ret .unit) :=
  fun _ hk => hR.wr (hk _)

/-- A core that checks its operand and writes a register. -/
theorem RegStable.checkedSetter (hR : RegStable P) {b : Bool} {code : FaultCode} {r : Reg} {v : Word} :
    Core.Keeps P fun ret => checkB b code (Machine.wr r v (ret .unit)) :=
  fun _ hk => keeps_checkB (hR.wr (hk _))

/-- A core that reads a register and writes it back changed (R106). -/
theorem RegStable.modifier (hR : RegStable P) {r : Reg} {f : Word → Word} :
    Core.Keeps P fun ret => Machine.rd r fun v => Machine.wr r (f v) (ret .unit) :=
  fun _ hk => hR.rd fun _ => hR.wr (hk _)

-- ==== palette, window, frame, whole layer ====

variable {l : Layer} {k : Prog}

theorem RegStable.setPaletteEntry (hR : RegStable P) {index color : Word} : (setPaletteEntryCore l index color).Keeps P :=
  fun _ hk => hR.rd fun _ => keeps_checkB (keeps_checkB (hR.wr (hk _)))

theorem RegStable.paletteLoop (hR : RegStable P) {p : Word} (hk : k.Keeps P) (n i : Nat) : (paletteLoop l p n i k).Keeps P := by
  induction n generalizing i with
  | zero => exact keeps_jump hk
  | succ n ih => exact keeps_crashCheck (keeps_memRd fun _ => hR.wr (keeps_jump (ih _)))

theorem RegStable.applyPalette (hR : RegStable P) {p n : Word} (hk : k.Keeps P) : (applyPalette l p n k).Keeps P :=
  hR.rd fun _ => keeps_checkB (keeps_checkB (keeps_checkB (hR.paletteLoop hk _ _)))

theorem RegStable.applyWindow (hR : RegStable P) {w : WindowD} (hk : k.Keeps P) : (applyWindow l w k).Keeps P :=
  keeps_look fun _ => keeps_look fun _ => keeps_look fun _ => keeps_look fun _ =>
    keeps_checkB (keeps_checkB (keeps_checkB (keeps_checkB (hR.wr (hR.wr hk)))))

theorem RegStable.applyFrame (hR : RegStable P) {f : FrameD} (hk : k.Keeps P) : (applyFrame l f k).Keeps P :=
  keeps_check <| keeps_checkB <| keeps_crashCheck <| keeps_cfgRd fun _ => keeps_cfgRd fun _ =>
    keeps_checkB <| keeps_checkB <| keeps_checkB <| keeps_checkB <| keeps_checkB <| hR.wr <| hR.wr <| hR.wr <| hR.wr hk

theorem RegStable.optPalette (hR : RegStable P) {p n : Word} (hk : k.Keeps P) : (optPalette l p n k).Keeps P := by
  unfold Machine.optPalette
  split
  · exact hR.applyPalette hk
  · exact keeps_jump hk

theorem RegStable.applySpec (hR : RegStable P) {d : LayerSpecD} (hk : k.Keeps P) : (applySpec l d k).Keeps P :=
  hR.applyFrame <| hR.applyWindow <| hR.wr <| hR.wr <| hR.wr <| hR.wr <| hR.optPalette <| hR.wr hk

-- ==== the records a pointer names: reads change nothing ====

theorem keeps_readWindow {p : Word} {o : Nat} {k : WindowD → Prog} (hk : ∀ w, (k w).Keeps P) : (readWindow p o k).Keeps P :=
  keeps_crashCheck <| keeps_memRd fun _ => keeps_memRd fun _ => keeps_memRd fun _ => keeps_memRd fun _ => hk _

theorem keeps_readFrame {p : Word} {k : FrameD → Prog} (hk : ∀ f, (k f).Keeps P) : (readFrame p k).Keeps P :=
  keeps_crashCheck <| keeps_memRd fun _ => keeps_memRd fun _ => keeps_memRd fun _ => keeps_memRd fun _ =>
    keeps_memRd fun _ => hk _

theorem keeps_readLayerSpec {p : Word} {k : LayerSpecD → Prog} (hk : ∀ d, (k d).Keeps P) : (readLayerSpec p k).Keeps P :=
  keeps_crashCheck <| keeps_readFrame fun _ => keeps_readWindow fun _ =>
    keeps_memRd fun _ => keeps_memRd fun _ => keeps_memRd fun _ => keeps_memRd fun _ => keeps_memRd fun _ =>
      keeps_memRd fun _ => keeps_memRd fun _ => hk _

theorem keeps_readConfig {p : Word} {k : ConfigD → Prog} (hk : ∀ c, (k c).Keeps P) : (readConfig p k).Keeps P :=
  keeps_crashCheck <| keeps_memRd fun _ => keeps_memRd fun _ => keeps_memRd fun _ => keeps_memRd fun _ =>
    keeps_memRd fun _ => keeps_memRd fun _ => keeps_memRd fun _ => keeps_memRd fun _ => keeps_memRd fun _ =>
      keeps_memRd fun _ => keeps_memRd fun _ => keeps_memRd fun _ => keeps_memRd fun _ => keeps_memRd fun _ =>
        keeps_memRd fun _ => keeps_memRd fun _ => hk _

theorem RegStable.setLayerTo (hR : RegStable P) {p : Word} (hk : k.Keeps P) : (setLayerTo l p k).Keeps P := by
  unfold Machine.setLayerTo
  split
  · exact keeps_jump (hR.applySpec hk)
  · exact keeps_readLayerSpec fun _ => hR.applySpec hk

/-- The internal commit of START and STOP (R201). -/
theorem RegStable.internalCommit (hR : RegStable P) (hP : PollStable P) (hk : k.Keeps P) : (internalCommit k).Keeps P :=
  hR.wr ⟨hP, hk⟩

end Sys2Proof.Machine
end

section
/-! PROOFS. O55: every command but the four of `Instr.writesMemory` leaves host memory (R16, R100), from every cell and with
every schedule. The property a run keeps is that memory is a given one. -/

namespace Sys2Proof.Machine

/-- Host memory is `m`. -/
def MemIs (m : Mem) (s : State) : Prop := s.mem = m

variable {m : Mem} {k : Prog}

theorem memIs_stable : Stable (MemIs m) where
  sched _ _ _ h := h
  raster s a _ h := by simpa [MemIs] using h
  suspend s c h := by simpa [MemIs] using h
  finish s w v h := by simpa [MemIs] using h
  raise s c e i h := by simpa [MemIs] using h

theorem memIs_lockStable : LockStable (MemIs m) := ⟨fun _ _ h => h, fun _ _ h => h⟩

theorem memIs_pollStable : PollStable (MemIs m) := ⟨fun _ h => h, fun _ h => h, fun _ _ h => h⟩

theorem memIs_regStable : RegStable (MemIs m) where
  afterRead s r h := by simpa [MemIs] using h
  regWrite s r v h := by simpa [MemIs] using h

/-- A write of a state cell that is no byte of memory. -/
theorem keepsMem_act {f : State → State} (hf : ∀ s, (f s).mem = s.mem) (hk : k.Keeps (MemIs m)) :
    (act f k).Keeps (MemIs m) :=
  keeps_act (fun s h => (hf s).trans h) hk

-- ==== life cycle and reload ====

theorem init_keepsMem : initCore.Keeps (MemIs m) := fun _ hk =>
  keeps_check <| keepsMem_act (fun _ => rfl) <| keepsMem_act (fun _ => rfl) <| keepsMem_act (fun _ => rfl) <|
    keepsMem_act (fun _ => rfl) <| keepsMem_act (fun _ => rfl) <| keepsMem_act (fun _ => rfl) (hk _)

theorem programTimings_keepsMem {c : ConfigD} (hk : k.Keeps (MemIs m)) : (programTimings c k).Keeps (MemIs m) :=
  keeps_checkB <| keeps_checkB <| memIs_regStable.wr <|
    keeps_checkB <| keeps_checkB <| keeps_checkB <| keeps_checkB <| memIs_regStable.wr <|
    keeps_checkB <| keeps_checkB <| keeps_checkB <| keeps_checkB <| memIs_regStable.wr <|
    keeps_checkB <| keeps_checkB <| keeps_checkB <| keeps_checkB <| memIs_regStable.wr <| keepsMem_act (fun _ => rfl) hk

theorem internalCommit_keepsMem (hk : k.Keeps (MemIs m)) : (internalCommit k).Keeps (MemIs m) :=
  memIs_regStable.internalCommit memIs_pollStable hk

theorem startTail_keepsMem {c : ConfigD} (hk : k.Keeps (MemIs m)) : (startTail c k).Keeps (MemIs m) :=
  keepsMem_act (fun _ => rfl) <| keepsMem_act (fun _ => rfl) <| memIs_regStable.wr <| internalCommit_keepsMem <|
    memIs_regStable.rd fun _ => memIs_regStable.wr <| internalCommit_keepsMem <| keepsMem_act (fun _ => rfl) hk

theorem start_keepsMem {p : Word} : (startCore p).Keeps (MemIs m) := fun _ hk =>
  keeps_check <| keeps_checkB <| keeps_readConfig fun _ => keepsMem_act (fun _ => rfl) <|
    memIs_regStable.rd fun _ => memIs_regStable.wr <| memIs_regStable.wr <| internalCommit_keepsMem <|
    programTimings_keepsMem <| memIs_regStable.rd fun _ => memIs_regStable.wr <| memIs_regStable.wr <|
    memIs_regStable.setLayerTo <| memIs_regStable.setLayerTo <| startTail_keepsMem (hk _)

theorem stop_keepsMem : stopCore.Keeps (MemIs m) := fun _ hk =>
  keeps_check <| memIs_regStable.rd fun _ => memIs_regStable.wr <| memIs_regStable.wr <| internalCommit_keepsMem <|
    keepsMem_act (fun _ => rfl) (hk _)

theorem startReload_keepsMem {x : Word} : (startReloadCore x).Keeps (MemIs m) := fun _ hk =>
  keeps_check <| keepsMem_act (fun _ => rfl) <| memIs_regStable.wr (hk _)

theorem polledWait_keepsMem {b : Word} : (polledWait b).Keeps (MemIs m) := fun _ hk =>
  memIs_regStable.wr ⟨memIs_pollStable, keepsMem_act (fun _ => rfl) (hk _)⟩

theorem sleepingWait_keepsMem : sleepingWait.Keeps (MemIs m) := fun _ hk =>
  memIs_regStable.wr <| keepsMem_act (fun _ => rfl) <| keeps_sleep memIs_pollStable <| keepsMem_act (by simp) (hk _)

theorem reloadWait_keepsMem {w : Bool} {x : Word} : (reloadWaitCore w x).Keeps (MemIs m) := by
  intro ret hk
  refine keeps_check <| keeps_check <| keepsMem_act (fun _ => rfl) ?_
  split
  · split
    · exact polledWait_keepsMem _ fun _ => keeps_jump (hk _)
    · exact keeps_jump (sleepingWait_keepsMem _ hk)
  · exact polledWait_keepsMem _ hk

-- ==== the mutexes ====

theorem acquireBus_keepsMem : acquireBusCore.Keeps (MemIs m) := fun _ hk =>
  keeps_check <| keeps_holdUntil (fun _ h => h) (hk _)

theorem releaseBus_keepsMem : releaseBusCore.Keeps (MemIs m) := fun _ hk =>
  keeps_check <| keeps_check <| keepsMem_act (fun _ => rfl) (hk _)

theorem pnlAcquireBus_keepsMem : pnlAcquireBusCore.Keeps (MemIs m) := fun _ hk =>
  keeps_check <| keeps_holdUntil (fun _ h => h) (hk _)

theorem pnlReleaseBus_keepsMem : pnlReleaseBusCore.Keeps (MemIs m) := fun _ hk =>
  keeps_check <| keeps_check <| keepsMem_act (fun _ => rfl) (hk _)

-- ==== the panel ====

theorem pnlObjectInit_keepsMem : pnlObjectInitCore.Keeps (MemIs m) := fun _ hk =>
  keeps_check <| keepsMem_act (fun _ => rfl) <| keepsMem_act (fun _ => rfl) <| keepsMem_act (fun _ => rfl) <|
    keepsMem_act (fun _ => rfl) (hk _)

theorem pnlStart_keepsMem {p : Word} : (pnlStartCore p).Keeps (MemIs m) := fun _ hk =>
  keeps_check <| keeps_checkB <| keeps_crashCheck <| keeps_memRd fun _ => keeps_memRd fun _ =>
    keepsMem_act (fun _ => rfl) <| keepsMem_act (fun _ => rfl) (hk _)

theorem pnlStop_keepsMem : pnlStopCore.Keeps (MemIs m) := fun _ hk => keeps_check <| keepsMem_act (fun _ => rfl) (hk _)

theorem pnlSelect_keepsMem : pnlSelectCore.Keeps (MemIs m) := fun _ hk =>
  keeps_check <| keeps_shim <| keepsMem_act (fun _ => rfl) <| keepsMem_act (fun _ => rfl) (hk _)

theorem pnlUnselect_keepsMem : pnlUnselectCore.Keeps (MemIs m) := fun _ hk =>
  keeps_check <| keeps_shim <| keepsMem_act (fun _ => rfl) <| keepsMem_act (fun _ => rfl) (hk _)

theorem sendByte_keepsMem {d : DcxLevel} {b : Byte} : (sendByte d b).Keeps (MemIs m) := fun _ hk =>
  keeps_check <| keepsMem_act (fun _ => rfl) <| keepsMem_act (fun _ => rfl) <| keepsMem_act (fun _ => rfl) (hk _)

theorem pnlReadByte_keepsMem : pnlReadByteCore.Keeps (MemIs m) := fun _ hk =>
  keeps_check <| keepsMem_act (fun _ => rfl)
    ⟨fun _ h => h, fun _ => keepsMem_act (fun _ => rfl) <| keeps_look fun _ => hk _⟩

/-- Reading a chunk's bytes changes nothing (R392). -/
theorem keeps_readChunk {P : State → Prop} {buf : Word} {k : List Byte → Prog} (hk : ∀ d, (k d).Keeps P) (n i : Nat)
    (acc : List Byte) : (readChunk buf n i acc k).Keeps P := by
  induction n generalizing i acc with
  | zero => exact keeps_jump (hk _)
  | succ n ih => exact keeps_byteRd fun _ => keeps_jump (ih _ _)

theorem spiSend_keepsMem (hk : k.Keeps (MemIs m)) (d : List Byte) : (spiSend d k).Keeps (MemIs m) := by
  induction d with
  | nil => exact keeps_jump hk
  | cons b d ih => exact keepsMem_act (fun _ => rfl) (keeps_jump ih)

theorem pnlWriteChunk_keepsMem {buf n : Word} : (pnlWriteChunkCore buf n).Keeps (MemIs m) := fun _ hk =>
  keeps_check <| keeps_checkB <| keeps_checkB <| keepsMem_act (fun _ => rfl) <| keeps_crashCheck <|
    keeps_readChunk (fun d => spiSend_keepsMem (hk _) d) _ _ _

-- ==== the handlers ====

theorem runBody_keepsMem {cb : Word} (hk : k.Keeps (MemIs m)) : (runBody cb k).Keeps (MemIs m) := by
  refine ⟨fun s hs => ?_, fun _ => hk⟩
  show Micro.Keeps _ (if _ then _ else _)
  split
  · exact hs
  · exact (State.mapTop_mem _ _).trans hs

theorem callback_keepsMem {kind : CbKind} {cb : Word} (hk : k.Keeps (MemIs m)) : (callback kind cb k).Keeps (MemIs m) :=
  keepsMem_act (fun _ => rfl) (runBody_keepsMem hk)

theorem acknowledge_keepsMem {flag : Word} (hk : k.Keeps (MemIs m)) : (acknowledge flag k).Keeps (MemIs m) :=
  memIs_regStable.rd fun _ => memIs_regStable.wr hk

theorem requiredCallback_keepsMem {off : Nat} {kind : CbKind} {flag : Word} (hk : k.Keeps (MemIs m)) :
    (requiredCallback off kind flag k).Keeps (MemIs m) :=
  keeps_cfgRd fun _ => keeps_checkB <| keeps_crashCheck <| callback_keepsMem <| acknowledge_keepsMem hk

theorem setCrit_keepsMem {b : Bool} (hk : k.Keeps (MemIs m)) : (setCrit b k).Keeps (MemIs m) := keepsMem_act (by simp) hk

theorem wakeParked_keepsMem (hk : k.Keeps (MemIs m)) : (wakeParked k).Keeps (MemIs m) := by
  refine keeps_look fun b => ?_
  split
  · exact keeps_jump hk
  · exact keepsMem_act (by simp) <| keepsMem_act (by simp) <| keepsMem_act (fun _ => rfl) hk

theorem completeReload_keepsMem (hk : k.Keeps (MemIs m)) : (completeReload k).Keeps (MemIs m) :=
  setCrit_keepsMem <| keeps_check <| wakeParked_keepsMem <| keepsMem_act (fun _ => rfl) <| setCrit_keepsMem <|
    acknowledge_keepsMem hk

theorem reloadDone_keepsMem (hk : k.Keeps (MemIs m)) : (reloadDone k).Keeps (MemIs m) := by
  refine keeps_cfgRd fun cb => ?_
  split
  · exact keeps_jump (completeReload_keepsMem hk)
  · exact callback_keepsMem (completeReload_keepsMem hk)

/-- A branch of a handler keeps what its body and what follows it keep. -/
theorem keeps_whenFlag {P : State → Prop} {sample flag : Word} {size : Int} {body : Prog → Prog} (hb : (body k).Keeps P)
    (hk : k.Keeps P) : (whenFlag sample flag size body k).Keeps P := by
  unfold whenFlag
  split
  · exact hb
  · exact keeps_jump hk

theorem reloadBranch_keepsMem {sample : Word} :
    (whenFlag sample flagReload reloadDoneSize reloadDone (.done .unit)).Keeps (MemIs m) :=
  keeps_whenFlag (reloadDone_keepsMem trivial) trivial

/-- A branch of a handler whose callback must not be null. -/
theorem requiredBranch_keepsMem {sample flag flag' : Word} {off : Nat} {kind : CbKind} (hk : k.Keeps (MemIs m)) :
    (whenFlag sample flag requiredSize (requiredCallback off kind flag') k).Keeps (MemIs m) :=
  keeps_whenFlag (requiredCallback_keepsMem hk) hk

theorem eventIrq_keepsMem : eventIrqBody.Keeps (MemIs m) :=
  memIs_regStable.rd fun _ => memIs_regStable.rd fun _ => requiredBranch_keepsMem reloadBranch_keepsMem

theorem errorIrq_keepsMem : errorIrqBody.Keeps (MemIs m) :=
  memIs_regStable.rd fun _ => memIs_regStable.rd fun _ => requiredBranch_keepsMem (requiredBranch_keepsMem trivial)

-- ==== every core ====

theorem isLayerEnabled_keeps {P : State → Prop} {l : Layer} : (isLayerEnabledCore l).Keeps P :=
  fun _ hk => ⟨fun _ h => h, fun _ => hk _⟩

/-- Every core but those of the four commands that write a record keeps memory, row by row of the table. -/
theorem coreOf_keepsMem {i : Instr} (w : Bool) (o : Operands) (h : i.writesMemory = false) :
    (i.coreOf w o).Keeps (MemIs m) := by
  cases i with
  | getWindow | getFrame | getLayer | pnlReadChunk => cases h
  | eventIrq | errorIrq => exact fun _ hk => hk _
  | init => exact init_keepsMem
  | start => exact start_keepsMem
  | stop => exact stop_keepsMem
  | startReload => exact startReload_keepsMem
  | reloadWait => exact reloadWait_keepsMem
  | acquireBus => exact acquireBus_keepsMem
  | releaseBus => exact releaseBus_keepsMem
  | isReloading | getGlobalFlags | getClearColor | getLinePos | getCurrentPos | getEnableFlags | getPixelFormat
  | getKeyColor | isKeyingEnabled | getConstAlpha | getDefaultColor | getBlending | isPaletteEnabled | getFrameAddress =>
    exact memIs_regStable.getter
  | isLayerEnabled => exact isLayerEnabled_keeps
  | setClearColor | setEnableFlags | setKeyColor | setConstAlpha | setDefaultColor | setBlending | setFrameAddress =>
    exact memIs_regStable.setter
  | setLinePos | setPixelFormat => exact memIs_regStable.checkedSetter
  | setGlobalFlags | enableLayer | disableLayer | enableKeying | disableKeying | enablePalette | disablePalette =>
    exact memIs_regStable.modifier
  | setPaletteEntry => exact memIs_regStable.setPaletteEntry
  | setPalette => exact fun _ hk => memIs_regStable.applyPalette (hk _)
  | setWindow => exact fun _ hk => keeps_checkB <| keeps_readWindow fun _ => memIs_regStable.applyWindow (hk _)
  | setInvalidWindow => exact fun _ hk => memIs_regStable.applyWindow (hk _)
  | setFrame => exact fun _ hk => keeps_checkB <| keeps_readFrame fun _ => memIs_regStable.applyFrame (hk _)
  | setLayer => exact fun _ hk => memIs_regStable.setLayerTo (hk _)
  | bpp | toArgb8888 | fromArgb8888 => exact fun _ hk => keeps_checkB (hk _)
  | pnlObjectInit => exact pnlObjectInit_keepsMem
  | pnlStart => exact pnlStart_keepsMem
  | pnlStop => exact pnlStop_keepsMem
  | pnlAcquireBus => exact pnlAcquireBus_keepsMem
  | pnlReleaseBus => exact pnlReleaseBus_keepsMem
  | pnlSelect => exact pnlSelect_keepsMem
  | pnlUnselect => exact pnlUnselect_keepsMem
  | pnlWriteCommand | pnlWriteByte => exact sendByte_keepsMem
  | pnlReadByte => exact pnlReadByte_keepsMem
  | pnlWriteChunk => exact pnlWriteChunk_keepsMem

/-- A command is a handler's word or has a class. -/
theorem cls_none_iff {i : Instr} : i.cls = none ↔ i = .eventIrq ∨ i = .errorIrq := by cases i <;> simp [Instr.cls]

/-- Settles O55: the handlers by their bodies, every other command by its core. -/
theorem memoryUnchanged : Obligations.MemoryUnchanged := by
  intro i s t hi h
  cases hc : i.cls with
  | none =>
    rcases cls_none_iff.1 hc with rfl | rfl
    · exact handler_keeps memIs_stable eventIrq_keepsMem rfl h
    · exact handler_keeps memIs_stable errorIrq_keepsMem rfl h
  | some cl =>
    rw [exec_eq_command s hc] at h
    exact command_keeps (P := MemIs s.mem) memIs_stable (fun _ => memIs_lockStable) (fun o => coreOf_keepsMem _ o hi) rfl h

end Sys2Proof.Machine
end

section
/-! PROOFS. How an undisturbed run ends: one rule per primitive of the pseudocode, backward from the end, and from the dispatch
prologue to the core of a command. A proof about a command applies the rules in the order of its pseudocode. -/

namespace Sys2Proof.Machine

/-- From `s`, and from whatever cell, the run of `p` ends as `E` says, in a cell of the same command. -/
def Prog.Ends (p : Prog) (s : State) (E : Cell → Out → Prop) : Prop :=
  ∀ c : Cell, ∃ c' : Cell, c'.word = c.word ∧ E c' (run p c s)

/-- The end of a run that raises `code` in `s` (R452). -/
def Raised (code : FaultCode) (s : State) (c : Cell) (o : Out) : Prop := o = .next (s.raise c code none)

/-- The end of a run that leaves the agent without a step, the outcome `f`. -/
def Stopped (f : Fault) (_ : Cell) (o : Out) : Prop := o = .fault f

variable {s s' : State} {E : Cell → Out → Prop} {k : Prog} {code : FaultCode} {f : Fault}

-- ==== one rule per primitive ====

/-- A micro-step that completes. -/
theorem Prog.Ends.of_push {p : Prog} {r : Word} (h : ∀ c, run p c s = run k (c.push r) s') (hk : k.Ends s' E) : p.Ends s E :=
  fun c => h c ▸ hk (c.push r)

/-- A jump of the pseudocode. -/
theorem Prog.Ends.of_jump {p : Prog} {d : Int} {r : Word} (h : ∀ c, run p c s = run k (c.jump d r) s') (hk : k.Ends s' E) :
    p.Ends s E :=
  fun c => h c ▸ hk (c.jump d r)

theorem ends_act {g : State → State} (h : s.sched = []) (hk : k.Ends (g s) E) : (act g k).Ends s E :=
  .of_push (fun _ => run_act h) hk

theorem ends_rd {l : Layer} {r : LReg} {k : Word → Prog} (h : s.sched = []) (hk : (k ((s.lay l).get r)).Ends s E) :
    (rd (.lay l r) k).Ends s E :=
  .of_push (fun _ => run_rd h) hk

theorem ends_wr {r : Reg} {v : Word} (h : s.sched = []) (hk : k.Ends (s.regWrite r v) E) : (wr r v k).Ends s E :=
  .of_push (fun _ => run_wr h) hk

theorem ends_look {g : State → Word} {k : Word → Prog} (hk : (k (g s)).Ends s E) : (look g k).Ends s E :=
  .of_jump (fun _ => run_look) hk

theorem ends_jump {d : Int} (hk : k.Ends s E) : (jump d k).Ends s E := .of_jump (fun _ => run_jump) hk

theorem ends_check {g : State → Bool} (h : s.sched = []) (hg : s.Passes (g s)) (hk : k.Ends s E) : (check g code k).Ends s E :=
  .of_push (fun _ => run_check_pass h hg) hk

theorem ends_checkB {b : Bool} (h : s.sched = []) (hb : s.Passes b) (hk : k.Ends s E) : (checkB b code k).Ends s E :=
  ends_check h hb hk

theorem ends_crashCheck {g : State → Bool} (h : s.sched = []) (hg : g s = true) (hk : k.Ends s E) : (crashCheck g k).Ends s E :=
  .of_push (fun _ => run_crashCheck_pass h hg) hk

theorem crashCheck_raises {g : State → Bool} (h : s.sched = []) (hg : g s = false) : (crashCheck g k).Ends s (Raised .crash s) :=
  fun c => ⟨c, rfl, run_crashCheck_fail h hg⟩

theorem ends_memRd {base : Word} {off n : Nat} {k : Word → Prog} (h : s.sched = []) (ha : aligned4 base = true)
    (hk : (k (s.mem.readLe (base + BitVec.ofNat 32 off) n)).Ends s E) : (memRd base off n k).Ends s E :=
  .of_push (fun _ => run_memRd h ha) hk

theorem ends_cfgRd {off n : Nat} {k : Word → Prog} (h : s.sched = []) (hn : s.cfg ≠ 0) (ha : aligned4 s.cfg = true)
    (hk : (k (s.mem.readLe (s.cfg + BitVec.ofNat 32 off) n)).Ends s E) : (cfgRd off n k).Ends s E :=
  .of_push (fun _ => run_cfgRd h hn ha) hk

theorem ends_memWr {base v : Word} {off n : Nat} (h : s.sched = []) (ha : aligned4 base = true)
    (hk : k.Ends { s with mem := s.mem.writeLe (base + BitVec.ofNat 32 off) n v } E) : (memWr base off n v k).Ends s E :=
  .of_push (fun _ => run_memWr h ha) hk

theorem memRd_stops {base : Word} {off n : Nat} {k : Word → Prog} (h : s.sched = []) (ha : aligned4 base = false) :
    (memRd base off n k).Ends s (Stopped .misaligned) := fun c => ⟨c, rfl, run_memRd_misaligned h ha⟩

/-- A record at an address that is no multiple of 4 is not written either (R105). -/
theorem memWr_stops {base v : Word} {off n : Nat} (h : s.sched = []) (ha : aligned4 base = false) :
    (memWr base off n v k).Ends s (Stopped .misaligned) :=
  fun c => ⟨c, rfl, by simp [Stopped, memWr, run, turn_quiet h, ha]⟩

theorem ends_spiRx {k : Byte → Prog} (h : s.sched = []) (hk : (k s.rxByte).Ends s.receive E) : (spiRx k).Ends s E :=
  .of_push (fun _ => run_spiRx h) hk

-- ==== checks of several conditions ====

theorem passes_and {a b : Bool} : s.Passes (a && b) ↔ s.Passes a ∧ s.Passes b := by
  simp only [State.Passes, Bool.and_eq_true, or_and_left]

/-- Without CHECKS every check passes (R17). -/
theorem passes_unchecked {b : Bool} (h : s.par.checks = false) : s.Passes b := .inl h

-- ==== from the prologue to the core ====

/-- `s'` is `s` but for the threads and the scheduler lock: what an api form's `lock()` leaves (R36, R143). -/
def State.SameButLock (s' s : State) : Prop :=
  ∃ (ths : List Thread) (lk : Option Agent), s' = { s with threads := ths, lockHolder := lk }

/-- `exec i` comes to the core of `i` with nothing done but the prologue (R154). -/
def ReachesCore (i : Instr) (o : Operands) (s : State) : Prop :=
  ∃ (ret : ResultVal → Prog) (c : Cell) (s' : State), s'.SameButLock s ∧ c.word = encode i
    ∧ exec i s = run (i.coreOf s.par.useWait o ret) c s'

theorem sameButLock_refl : s.SameButLock s := ⟨s.threads, s.lockHolder, rfl⟩

theorem sameButLock_takeLock {t : Nat} : (s.takeLock t).SameButLock s := ⟨_, _, rfl⟩

variable {i : Instr} {o : Operands}

/-- A class I command that may run comes to its core (R142, R143). -/
theorem reachesCore_intSafe {form : Form} (hc : i.cls = some (.intSafe form)) (hm : s.MayRunI form) (hi : s.Issued i o) :
    ReachesCore i o s := by
  have he := exec_eq_command s hc
  have hw := wellFormed_of_form s.par.useMutex (.inl hc)
  cases form with
  | api => exact ⟨_, _, _, sameButLock_takeLock, rfl, he.trans (command_intSafe_api hi hw hm.1 hm.2)⟩
  | locked => exact ⟨_, _, _, sameButLock_refl, rfl, he.trans (command_intSafe_locked hi hw hm)⟩

/-- A class S command that may run comes to its core (R142, R143). -/
theorem reachesCore_schedLocked {form : Form} (hc : i.cls = some (.schedLocked form)) (hm : s.MayRunS form)
    (hi : s.Issued i o) : ReachesCore i o s := by
  have he := exec_eq_command s hc
  have hw := wellFormed_of_form s.par.useMutex (.inr hc)
  cases form with
  | api => exact ⟨_, _, _, sameButLock_takeLock, rfl, he.trans (command_schedLocked_api hi hw hm.1 hm.2)⟩
  | locked => exact ⟨_, _, _, sameButLock_refl, rfl, he.trans (command_schedLocked_locked hi hw hm)⟩

/-- A panel or mutex command whose context check passes comes to its core (R154, R380). -/
theorem reachesCore_api (hc : i.cls = some .api) (hw : i.wellFormed true s.par.useMutex = true)
    (hp : s.Passes (s.ctx == .thread)) (hi : s.Issued i o) : ReachesCore i o s := by
  refine ⟨.done, ⟨encode i, o, 2, [0, 0], none⟩, s, sameButLock_refl, rfl, ?_⟩
  rw [exec_eq_command s hc, command_issued hi, dispatch, run_decodeStep hi.1 hw]
  exact run_check_pass hi.1 hp

/-- A core that stops the agent stops the command. -/
theorem ReachesCore.stops (h : ReachesCore i o s)
    (hr : ∀ ret s', s'.SameButLock s → (i.coreOf s.par.useWait o ret).Ends s' (Stopped f)) : exec i s = .fault f := by
  obtain ⟨ret, c, s', hs, -, he⟩ := h
  obtain ⟨_, -, hf⟩ := hr ret s' hs c
  exact he.trans hf

/-- A core that raises makes the command raise. -/
theorem ReachesCore.raises {g : State → State} (h : ReachesCore i o s)
    (hr : ∀ ret s', s'.SameButLock s → (i.coreOf s.par.useWait o ret).Ends s' (Raised code (g s'))) :
    ∃ (c : Cell) (s' : State), s'.SameButLock s ∧ c.word = encode i ∧ exec i s = .next ((g s').raise c code none) := by
  obtain ⟨ret, c, s', hs, hw, he⟩ := h
  obtain ⟨c', hw', hr⟩ := hr ret s' hs c
  exact ⟨c', s', hs, hw'.trans hw, he.trans hr⟩

-- ==== what a raise leaves ====

theorem State.SameBlock.refl : s.SameBlock s := by simp [State.SameBlock]

/-- A raise leaves the LTDC, the panel and host memory (R453). -/
theorem sameBlock_raise {c : Cell} {info : Option CmdWord} {s₀ : State} (h : s.SameBlock s₀) :
    (s.raise c code info).SameBlock s₀ := by
  simpa [State.SameBlock] using h

theorem raise_fault {c : Cell} {info : Option CmdWord} :
    (s.raise c code info).fault = some ⟨code, c.word, c.step, s.self, info⟩ := rfl

theorem raise_events {c : Cell} {info : Option CmdWord} : (s.raise c code info).events = s.events ++ [.fault code] := by
  simp [State.raise]

/-- A raise in a state with the same block and history as before. -/
theorem faultsAtStep_of_raise {c : Cell} {info : Option CmdWord} (he : exec i s = .next (s'.raise c code info))
    (hw : c.word = encode i) (hself : s'.self = s.self) (hev : s'.events = s.events) (hb : s'.SameBlock s) :
    FaultsAtStep i s c.step code info :=
  ⟨_, he, by rw [raise_fault, hw, hself], by rw [raise_events, hev], sameBlock_raise hb⟩

/-- A core that raises before it has written anything. -/
theorem ReachesCore.faultsAtOnce (h : ReachesCore i o s)
    (hr : ∀ ret s', s'.SameButLock s → (i.coreOf s.par.useWait o ret).Ends s' (Raised code s')) :
    FaultsAtOnce i s code none := by
  obtain ⟨c, _, ⟨ths, lk, rfl⟩, hw, he⟩ := h.raises (g := id) hr
  exact ⟨_, faultsAtStep_of_raise he hw rfl rfl State.SameBlock.refl⟩

end Sys2Proof.Machine
end

section
/-! PROOFS. Undisturbed runs of the layer surface's subroutines: reading a record, applying a frame, a window and a whole
specification, writing a record (R314 to R316, R325, R326, R335, R336). -/

namespace Sys2Proof.Machine

variable {s : State} {E : Cell → Out → Prop} {l : Layer} {k : Prog} {p q : Word}

theorem ne_zero_of_unaligned (h : aligned4 p = false) : p ≠ 0 := by rintro rfl; exact absurd h (by decide)

/-- The one record whose window lies at address 0 (R314, log 20). -/
theorem aligned4_of_add_16 (h : p + 16 = 0) : aligned4 p = true := by
  have : p = 0xFFFFFFF0#32 := by bv_omega
  subst this
  decide

theorem ne_zero_of_add_16 (h : p + 16 = 0) : p ≠ 0 := by rintro rfl; exact absurd h (by decide)

-- ==== reading a record ====

theorem readWindow_ends {o : Nat} {k : WindowD → Prog} (h : s.sched = []) (ha : aligned4 p = true)
    (hp : p + BitVec.ofNat 32 o ≠ 0) (hk : (k (windowAt s.mem (p + BitVec.ofNat 32 o))).Ends s E) :
    (readWindow p o k).Ends s E := by
  have hw : windowAt s.mem (p + BitVec.ofNat 32 o)
      = ⟨s.mem.readLe (p + BitVec.ofNat 32 (o + 0)) 2, s.mem.readLe (p + BitVec.ofNat 32 (o + 2)) 2,
        s.mem.readLe (p + BitVec.ofNat 32 (o + 4)) 2, s.mem.readLe (p + BitVec.ofNat 32 (o + 6)) 2⟩ := by
    simp [windowAt, BitVec.ofNat_add, BitVec.add_assoc]
  exact ends_crashCheck h (by simpa using hp) <| ends_memRd h ha <| ends_memRd h ha <| ends_memRd h ha <|
    ends_memRd h ha (hw ▸ hk)

theorem readFrame_ends {k : FrameD → Prog} (h : s.sched = []) (ha : aligned4 p = true) (hp : p ≠ 0)
    (hk : (k (frameAt s.mem p)).Ends s E) : (readFrame p k).Ends s E := by
  have hf : frameAt s.mem p = ⟨s.mem.readLe (p + BitVec.ofNat 32 0) 4, s.mem.readLe (p + BitVec.ofNat 32 4) 2,
      s.mem.readLe (p + BitVec.ofNat 32 6) 2, s.mem.readLe (p + BitVec.ofNat 32 8) 4,
      s.mem.readLe (p + BitVec.ofNat 32 12) 4⟩ := by simp [frameAt]
  exact ends_crashCheck h (by simpa using hp) <| ends_memRd h ha <| ends_memRd h ha <| ends_memRd h ha <|
    ends_memRd h ha <| ends_memRd h ha (hf ▸ hk)

theorem readLayerSpec_ends {k : LayerSpecD → Prog} (h : s.sched = []) (ha : aligned4 p = true) (hp : p ≠ 0)
    (hp' : p + 16 ≠ 0) (hk : (k (specAt s.mem p)).Ends s E) : (readLayerSpec p k).Ends s E := by
  rw [specAt, if_neg hp] at hk
  exact ends_crashCheck h (by simpa using hp) <| readFrame_ends h ha hp <| readWindow_ends h ha hp' <|
    ends_memRd h ha <| ends_memRd h ha <| ends_memRd h ha <| ends_memRd h ha <| ends_memRd h ha <| ends_memRd h ha <|
    ends_memRd h ha hk

/-- A whole-layer write comes to its specification, the default one for a null pointer (R336). -/
theorem setLayerTo_ends (h : s.sched = []) (hp : recordReadable p = true) (hk : (applySpec l (specAt s.mem p) k).Ends s E) :
    (setLayerTo l p k).Ends s E := by
  unfold setLayerTo
  split
  next h0 =>
    rw [h0, specAt, if_pos rfl] at hk
    exact ends_jump hk
  next h0 =>
    obtain ⟨ha, hp'⟩ : aligned4 p = true ∧ p + 16 ≠ 0 := by
      simpa [recordReadable, show p ≠ 0#32 from h0] using hp
    exact readLayerSpec_ends h ha h0 hp' hk

-- ==== a record that cannot be read ====

theorem readFrame_raises {k : FrameD → Prog} (h : s.sched = []) : (readFrame 0 k).Ends s (Raised .crash s) :=
  crashCheck_raises h rfl

theorem readConfig_raises {k : ConfigD → Prog} (h : s.sched = []) : (readConfig 0 k).Ends s (Raised .crash s) :=
  crashCheck_raises h rfl

theorem readWindow_raises {o : Nat} {k : WindowD → Prog} (h : s.sched = []) (hp : p + BitVec.ofNat 32 o = 0) :
    (readWindow p o k).Ends s (Raised .crash s) :=
  crashCheck_raises h (by simpa using hp)

theorem readWindow_stops {o : Nat} {k : WindowD → Prog} (h : s.sched = []) (ha : aligned4 p = false)
    (hp : p + BitVec.ofNat 32 o ≠ 0) : (readWindow p o k).Ends s (Stopped .misaligned) :=
  ends_crashCheck h (by simpa using hp) (memRd_stops h ha)

theorem readFrame_stops {k : FrameD → Prog} (h : s.sched = []) (ha : aligned4 p = false) :
    (readFrame p k).Ends s (Stopped .misaligned) :=
  ends_crashCheck h (by simpa using ne_zero_of_unaligned ha) (memRd_stops h ha)

theorem readConfig_stops {k : ConfigD → Prog} (h : s.sched = []) (ha : aligned4 p = false) :
    (readConfig p k).Ends s (Stopped .misaligned) :=
  ends_crashCheck h (by simpa using ne_zero_of_unaligned ha) (memRd_stops h ha)

theorem setLayerTo_stops (h : s.sched = []) (ha : aligned4 p = false) :
    (setLayerTo l p k).Ends s (Stopped .misaligned) := by
  have hp := ne_zero_of_unaligned ha
  rw [setLayerTo, if_neg hp]
  exact ends_crashCheck h (by simpa using hp) (readFrame_stops h ha)

/-- A specification whose window would lie at address 0 (R314, log 20). -/
theorem setLayerTo_raises (h : s.sched = []) (hp : p + 16 = 0) : (setLayerTo l p k).Ends s (Raised .crash s) := by
  have h0 := ne_zero_of_add_16 hp
  rw [setLayerTo, if_neg h0]
  exact ends_crashCheck h (by simpa using h0) <| readFrame_ends h (aligned4_of_add_16 hp) h0 <| readWindow_raises h hp

-- ==== what the packed registers keep of their words ====

/-- A field packed at bit 16 beside one at bit 0 fits the register's writable bits (R149). -/
theorem packed_and_mask (x y a b m : Word) (ha : a <<< 16 &&& m = a <<< 16) (hb : b &&& m = b) :
    (((x &&& a) <<< 16) ||| (y &&& b)) &&& m = ((x &&& a) <<< 16) ||| (y &&& b) := by
  rw [BitVec.and_or_distrib_right, BitVec.shiftLeft_and_distrib, BitVec.and_assoc, BitVec.and_assoc, ha, hb]

theorem packWh_and_mask (x y : Word) : packWh x y &&& 0x0FFF0FFF#32 = packWh x y :=
  packed_and_mask y x _ _ _ (by decide) (by decide)

theorem packWv_and_mask (x y : Word) : packWv x y &&& 0x07FF07FF#32 = packWv x y :=
  packed_and_mask y x _ _ _ (by decide) (by decide)

theorem packCfblr_and_mask (x y : Word) : packCfblr x y &&& 0xFFFF1FFF#32 = packCfblr x y :=
  packed_and_mask x (y + 3) _ _ _ (by decide) (by decide)

-- ==== applying a frame, a window, a specification ====

theorem inRange_zero (x hi : Word) : inRange x 0 hi = decide (x ≤ hi) := by
  simp [inRange, BitVec.le_def]

/-- The frame setter, its checks passed, writes the frame's four registers (R326). -/
theorem applyFrame_ends {f : FrameD} (h : s.sched = []) (hn : s.cfg ≠ 0) (ha : aligned4 s.cfg = true)
    (hf : s.Passes (frameOk (s.mem.readLe s.cfg 2) (s.mem.readLe (s.cfg + 2) 2) f))
    (hk : k.Ends (s.putLayer l ((s.lay l).withFrame f)) E) : (applyFrame l f k).Ends s E := by
  simp only [frameOk, passes_and] at hf
  obtain ⟨⟨⟨⟨⟨hfmt, hw⟩, hh⟩, hb⟩, hl⟩, hp⟩ := hf
  have hwr : (((s.regWrite (.lay l .pfcr) (f.fmt &&& 0x7)).regWrite (.lay l .cfbar) f.addr).regWrite (.lay l .cfblr)
        (packCfblr f.pitch (bytesPp f.fmt * f.width))).regWrite (.lay l .cfblnr) (f.height &&& Config.mask Config.vbits)
      = s.putLayer l ((s.lay l).withFrame f) := by
    simp [regWrite_pfcr, regWrite_cfbar, regWrite_cfblr, regWrite_cfblnr, LayerRegs.withFrame, packCfblr_and_mask,
      vbitsMask_eq, BitVec.and_assoc]
  exact ends_check h (.inr (by simpa using hn)) <| ends_checkB h (by rw [fmtOk]; exact (inRange_zero _ _).symm ▸ hfmt) <|
    ends_crashCheck h (by simpa using hn) <| ends_cfgRd h hn ha <| ends_cfgRd h hn ha <|
    ends_checkB h (by simpa using hw) <| ends_checkB h hh <| ends_checkB h ((inRange_zero _ _).symm ▸ hb) <|
    ends_checkB h ((inRange_zero _ _).symm ▸ hl) <| ends_checkB h hp <|
    ends_wr h <| ends_wr (by simpa using h) <| ends_wr (by simpa using h) <| ends_wr (by simpa using h) (hwr ▸ hk)

/-- With no configuration held, and no CHECKS, the frame setter crashes before it writes (R17, R326). -/
theorem applyFrame_raises {f : FrameD} (h : s.sched = []) (hc : s.par.checks = false) (hn : s.cfg = 0) :
    (applyFrame l f k).Ends s (Raised .crash s) :=
  ends_check h (passes_unchecked hc) <| ends_checkB h (passes_unchecked hc) <| crashCheck_raises h (by simp [hn])

/-- The window setter, its checks passed, writes the window's two registers (R316). -/
theorem applyWindow_ends {w : WindowD} (h : s.sched = []) (hw : s.Passes (windowOk s.activeWindow w))
    (hk : k.Ends (s.putLayer l ((s.lay l).withWindow s.activeWindow w)) E) : (applyWindow l w k).Ends s E := by
  simp only [windowOk, passes_and] at hw
  obtain ⟨⟨⟨hhs, hhe⟩, hvs⟩, hve⟩ := hw
  have hwr : (s.regWrite (.lay l .whpcr) (packWh (w.hstart + s.activeWindow.hs) (w.hstop + s.activeWindow.hs))).regWrite
        (.lay l .wvpcr) (packWv (w.vstart + s.activeWindow.vs) (w.vstop + s.activeWindow.vs))
      = s.putLayer l ((s.lay l).withWindow s.activeWindow w) := by
    simp [regWrite_whpcr, regWrite_wvpcr, LayerRegs.withWindow, packWh_and_mask, packWv_and_mask]
  exact ends_look <| ends_look <| ends_look <| ends_look <| ends_checkB h hhs <| ends_checkB h hhe <| ends_checkB h hvs <|
    ends_checkB h hve <| ends_wr h <| ends_wr (by simpa using h) (hwr ▸ hk)

/-- The state in which a whole-layer write of `d` to layer `l` comes to its palette (R336): all registers written but LxCR. -/
def State.beforePalette (s : State) (l : Layer) (d : LayerSpecD) : State :=
  s.putLayer l { (s.lay l).withSpec s.activeWindow d with cr := (s.lay l).cr }

theorem lay_beforePalette_cr {d : LayerSpecD} : ((s.beforePalette l d).lay l).cr = (s.lay l).cr := by
  rw [State.beforePalette, State.lay_putLayer]

/-- A whole-layer write, its frame's and window's checks passed, comes to its palette (R336). -/
theorem applySpec_ends {d : LayerSpecD} (h : s.sched = []) (hn : s.cfg ≠ 0) (ha : aligned4 s.cfg = true)
    (hf : s.Passes (frameOk (s.mem.readLe s.cfg 2) (s.mem.readLe (s.cfg + 2) 2) d.frame))
    (hw : s.Passes (windowOk s.activeWindow d.window))
    (hk : (optPalette l d.palPtr d.palLen <| wr (.lay l .cr) (d.flags &&& layerFlagMask) k).Ends (s.beforePalette l d) E) :
    (applySpec l d k).Ends s E := by
  refine applyFrame_ends h hn ha hf <| applyWindow_ends h hw ?_
  generalize hs1 : (s.putLayer l ((s.lay l).withFrame d.frame)).putLayer l _ = s1
  have h1 : s1.sched = [] := by rw [← hs1]; exact h
  have hwr : (((s1.regWrite (.lay l .dccr) d.defColor).regWrite (.lay l .ckcr) (rgb24 d.keyColor)).regWrite (.lay l .cacr)
      (d.constAlpha &&& 0xFF)).regWrite (.lay l .bfcr) (d.blending &&& 0x0707) = s.beforePalette l d := by
    simp [← hs1, regWrite_dccr, regWrite_ckcr, regWrite_cacr, regWrite_bfcr, State.beforePalette, LayerRegs.withSpec,
      LayerRegs.withFrame, LayerRegs.withWindow, rgb24, BitVec.and_assoc]
  exact ends_wr h1 <| ends_wr (by simpa using h1) <| ends_wr (by simpa using h1) <| ends_wr (by simpa using h1) (hwr ▸ hk)

-- ==== the palette loader ====

/-- The palette loader's checks (R306). -/
theorem applyPalette_ends {n : Word} (h : s.sched = []) (hr : s.Passes ((s.lay l).cr &&& 1 == 0))
    (hn : s.Passes (decide (n ≤ 256))) (hp : s.Passes (p != 0 || n == 0)) (hk : (paletteLoop l p n.toNat 0 k).Ends s E) :
    (applyPalette l p n k).Ends s E := by
  have hb : (!hasBits (s.lay l).cr crLen) = ((s.lay l).cr &&& 1 == 0) := by simp [hasBits, crLen, bne]
  exact ends_rd h <| ends_checkB h (hb ▸ hr) <| ends_checkB h hn <| ends_checkB h hp hk

/-- The loader's loop, with an entry left, begins with its crash check and its read (R306). -/
theorem paletteLoop_pos {n i : Nat} (hn : n ≠ 0) :
    ∃ k', paletteLoop l p n i k = crashCheck (fun _ => p != 0) (memRd p (4 * i) 4 k') := by
  obtain ⟨n, rfl⟩ := Nat.exists_eq_succ_of_ne_zero hn
  exact ⟨_, rfl⟩

theorem paletteLoop_raises {n i : Nat} (h : s.sched = []) (hn : n ≠ 0) : (paletteLoop l 0 n i k).Ends s (Raised .crash s) := by
  obtain ⟨k', hk⟩ := paletteLoop_pos (l := l) (p := 0) (k := k) (i := i) hn
  rw [hk]
  exact crashCheck_raises h rfl

theorem paletteLoop_stops {n i : Nat} (h : s.sched = []) (hn : n ≠ 0) (ha : aligned4 p = false) :
    (paletteLoop l p n i k).Ends s (Stopped .misaligned) := by
  obtain ⟨k', hk⟩ := paletteLoop_pos (l := l) (p := p) (k := k) (i := i) hn
  rw [hk]
  exact ends_crashCheck h (by simpa using ne_zero_of_unaligned ha) (memRd_stops h ha)

theorem applyPalette_stops {n : Word} (h : s.sched = []) (hr : s.Passes ((s.lay l).cr &&& 1 == 0))
    (hn : s.Passes (decide (n ≤ 256))) (h0 : n ≠ 0) (ha : aligned4 p = false) :
    (applyPalette l p n k).Ends s (Stopped .misaligned) := by
  have hp := ne_zero_of_unaligned ha
  have hn0 : n.toNat ≠ 0 := fun e => h0 (BitVec.eq_of_toNat_eq e)
  exact applyPalette_ends h hr hn (.inr (Bool.or_eq_true_iff.2 (.inl (bne_iff_ne.2 hp)))) (paletteLoop_stops h hn0 ha)

-- ==== writing a record ====

theorem getFrameTo_ends (h : s.sched = []) (ha : aligned4 q = true) (hq : q ≠ 0)
    (hk : k.Ends { s with mem := s.mem.putFrame q (frameOf (s.lay l)) } E) : (getFrameTo l q k).Ends s E := by
  have hq0 : q + BitVec.ofNat 32 0 = q := by simp
  refine ends_rd h <| ends_rd h <| ends_rd h <| ends_rd h <| ends_crashCheck h (by simpa using hq) <|
    ends_memWr h ha <| ends_memWr h ha <| ends_memWr h ha <| ends_memWr h ha <| ends_memWr h ha ?_
  simp only [hq0]
  exact hk

theorem getFrameTo_raises (h : s.sched = []) : (getFrameTo l 0 k).Ends s (Raised .crash s) :=
  ends_rd h <| ends_rd h <| ends_rd h <| ends_rd h <| crashCheck_raises h rfl

theorem getFrameTo_stops (h : s.sched = []) (ha : aligned4 q = false) : (getFrameTo l q k).Ends s (Stopped .misaligned) :=
  ends_rd h <| ends_rd h <| ends_rd h <| ends_rd h <|
    ends_crashCheck h (by simpa using ne_zero_of_unaligned ha) (memWr_stops h ha)

theorem getWindowTo_raises {o : Nat} (h : s.sched = []) (hq : q + BitVec.ofNat 32 o = 0) :
    (getWindowTo l q o k).Ends s (Raised .crash s) :=
  ends_rd h <| ends_rd h <| ends_look <| ends_look <| crashCheck_raises h (by simpa using hq)

theorem getWindowTo_stops {o : Nat} (h : s.sched = []) (ha : aligned4 q = false) (hq : q + BitVec.ofNat 32 o ≠ 0) :
    (getWindowTo l q o k).Ends s (Stopped .misaligned) :=
  ends_rd h <| ends_rd h <| ends_look <| ends_look <| ends_crashCheck h (by simpa using hq) (memWr_stops h ha)

end Sys2Proof.Machine
end

section
/-! PROOFS. Undisturbed runs of the panel framer's chunk commands up to their buffer (R381, R392, R393). -/

namespace Sys2Proof.Machine

variable {s : State} {E : Cell → Out → Prop} {k : Prog}

/-- A panel command whose context check passes comes to its core, in every build (R154, R380, R395). -/
theorem reachesCore_panel {i : Instr} {o : Operands} (hc : i.cls = some .api) (hp : i.isPanel = true)
    (hx : s.Passes (s.ctx == .thread)) (hi : s.Issued i o) : ReachesCore i o s :=
  reachesCore_api hc (wellFormed_of_cls _ hc (by rintro rfl; exact absurd hp (by decide))
    (by rintro rfl; exact absurd hp (by decide))) hx hi

/-- Receiving one byte, then `n` more, is receiving `n + 1` (R381). -/
theorem receiveN_receive (n : Nat) : s.receive.receiveN n = s.receiveN (n + 1) := by
  simp only [State.receiveN, State.receive, State.addWire, State.rxByte, List.range_succ_eq_map, List.map_cons, List.map_map,
    List.append_assoc, List.cons_append, List.nil_append, Nat.add_zero, Function.comp_def, Nat.add_assoc, Nat.succ_eq_add_one,
    Nat.add_comm 1]

/-- `SpiReceive(n)` records `n` entries and hands over the bytes in the order they came (R381). -/
theorem spiReceive_ends {k : List Byte → Prog} (n : Nat) (acc : List Byte) (h : s.sched = [])
    (hk : (k (acc.reverse ++ (List.range n).map fun j => Config.spiRx (s.draws + j))).Ends (s.receiveN n) E) :
    (spiReceive n acc k).Ends s E := by
  induction n generalizing s acc with
  | zero =>
    have hs : s.receiveN 0 = s := by simp [State.receiveN]
    rw [hs] at hk
    exact ends_jump (by simpa using hk)
  | succ n ih =>
    refine ends_spiRx h <| ends_jump <| ih _ h ?_
    rw [receiveN_receive]
    simpa [List.range_succ_eq_map, Function.comp_def, State.rxByte, Nat.add_assoc, Nat.add_comm 1] using hk

/-- Without CHECKS the head of a chunk command drives D/CX to data, whatever its operands (R392, R393). -/
theorem chunkHead_ends {buf n : Word} (h : s.sched = []) (hc : s.par.checks = false) (hk : k.Ends { s with dcx := .high } E) :
    (chunkHead buf n k).Ends s E :=
  ends_check h (passes_unchecked hc) <| ends_checkB h (passes_unchecked hc) <| ends_checkB h (passes_unchecked hc) <|
    ends_act h hk

end Sys2Proof.Machine
end

section
/-! PROOFS. O54: null and misaligned pointers, and no configuration without checks (R17, R105, R202, R306, R314, R326, R335,
R336, R383, R392, R393). Each part runs one core to the micro-step that crashes or has no step. -/

namespace Sys2Proof.Machine

variable {s : State} {o : Operands} {l : Layer} {c : Form} {i : Instr}

-- ==== the commands of one record ====

/-- The layer commands whose pointer must not be null. -/
def NamesRecord (l : Layer) (c : Form) (i : Instr) : Prop :=
  i = .setWindow l c ∨ i = .getWindow l c ∨ i = .setFrame l c ∨ i = .getFrame l c ∨ i = .getLayer l c

theorem NamesRecord.reachesCore (hi : NamesRecord l c i) (hm : s.MayRunI c) (his : s.Issued i o) : ReachesCore i o s := by
  rcases hi with rfl | rfl | rfl | rfl | rfl <;> exact reachesCore_intSafe rfl hm his

theorem NamesRecord.null_faults (hi : NamesRecord l c i) (hm : s.MayRunI c) (his : s.Issued i o) (hc : s.par.checks = false)
    (h0 : o.x = 0) : FaultsAtOnce i s .crash none := by
  refine (hi.reachesCore hm his).faultsAtOnce ?_
  rintro ret _ ⟨ths, lk, rfl⟩
  have h := his.1
  obtain ⟨x, y⟩ := o
  cases h0
  rcases hi with rfl | rfl | rfl | rfl | rfl <;> refine ends_checkB h (passes_unchecked hc) ?_
  · exact readWindow_raises h rfl
  · exact getWindowTo_raises h rfl
  · exact readFrame_raises h
  · exact getFrameTo_raises h
  · exact getFrameTo_raises h

theorem NamesRecord.unaligned_stops (hi : NamesRecord l c i) (hm : s.MayRunI c) (his : s.Issued i o)
    (ha : aligned4 o.x = false) : exec i s = .fault .misaligned := by
  refine (hi.reachesCore hm his).stops ?_
  rintro ret _ ⟨ths, lk, rfl⟩
  have h := his.1
  have h0 := ne_zero_of_unaligned ha
  have h0' : o.x + BitVec.ofNat 32 0 ≠ 0 := by simpa using h0
  rcases hi with rfl | rfl | rfl | rfl | rfl <;> refine ends_checkB h (.inr (bne_iff_ne.2 h0)) ?_
  · exact readWindow_stops h ha h0'
  · exact getWindowTo_stops h ha h0'
  · exact readFrame_stops h ha
  · exact getFrameTo_stops h ha
  · exact getFrameTo_stops h ha

/-- GET_LAYER of a record whose window would lie at address 0: the frame is written, then it crashes (log 20). -/
theorem getLayer_wraps (hm : s.MayRunI c) (his : s.Issued (.getLayer l c) o) (h16 : o.x + 16 = 0) :
    FaultsLeaving (.getLayer l c) s { s with mem := s.mem.putFrame o.x (frameOf (s.lay l)) } .crash none := by
  have h := his.1
  have h0 := ne_zero_of_add_16 h16
  obtain ⟨c', _, ⟨ths, lk, rfl⟩, hw, he⟩ := (reachesCore_intSafe rfl hm his).raises (code := .crash)
    (g := fun s' => { s' with mem := s'.mem.putFrame o.x (frameOf (s'.lay l)) }) (by
      rintro ret _ ⟨ths, lk, rfl⟩
      exact ends_checkB h (.inr (bne_iff_ne.2 h0)) <| getFrameTo_ends h (aligned4_of_add_16 h16) h0 <|
        getWindowTo_raises h h16)
  refine ⟨_, c'.step, he, ?_, raise_events, sameBlock_raise State.SameBlock.refl⟩
  rw [raise_fault, hw]
  rfl

/-- SET_FRAME with no configuration held. -/
theorem setFrame_noConfig (hm : s.MayRunI c) (hc : s.par.checks = false) (hn : s.cfg = 0) (his : s.Issued (.setFrame l c) o)
    (h0 : o.x ≠ 0) (ha : aligned4 o.x = true) : FaultsAtOnce (.setFrame l c) s .crash none := by
  refine (reachesCore_intSafe rfl hm his).faultsAtOnce ?_
  rintro ret _ ⟨ths, lk, rfl⟩
  exact ends_checkB his.1 (passes_unchecked hc) <| readFrame_ends his.1 ha h0 <| applyFrame_raises his.1 hc hn

-- ==== SET_PALETTE ====

theorem setPalette_null (hm : s.MayRunI c) (his : s.Issued (.setPalette l c) o) (hn : o.y ≠ 0) (hc : s.par.checks = false)
    (h0 : o.x = 0) : FaultsAtOnce (.setPalette l c) s .crash none := by
  refine (reachesCore_intSafe rfl hm his).faultsAtOnce ?_
  rintro ret _ ⟨ths, lk, rfl⟩
  obtain ⟨x, y⟩ := o
  cases h0
  have hy : y.toNat ≠ 0 := fun e => hn (BitVec.eq_of_toNat_eq e)
  exact applyPalette_ends his.1 (passes_unchecked hc) (passes_unchecked hc) (passes_unchecked hc) (paletteLoop_raises his.1 hy)

theorem setPalette_unaligned (hm : s.MayRunI c) (his : s.Issued (.setPalette l c) o) (hn : o.y ≠ 0)
    (hr : s.Passes ((s.lay l).cr &&& 1 == 0)) (hl : s.Passes (decide (o.y ≤ 256))) (ha : aligned4 o.x = false) :
    exec (.setPalette l c) s = .fault .misaligned := by
  refine (reachesCore_intSafe rfl hm his).stops ?_
  rintro ret _ ⟨ths, lk, rfl⟩
  exact applyPalette_stops his.1 hr hl hn ha

-- ==== SET_LAYER ====

theorem setLayer_unaligned (hm : s.MayRunI c) (his : s.Issued (.setLayer l c) o) (ha : aligned4 o.x = false) :
    exec (.setLayer l c) s = .fault .misaligned := by
  refine (reachesCore_intSafe rfl hm his).stops ?_
  rintro ret _ ⟨ths, lk, rfl⟩
  exact setLayerTo_stops his.1 ha

/-- SET_LAYER of a record whose window would lie at address 0 (log 20). -/
theorem setLayer_wraps (hm : s.MayRunI c) (his : s.Issued (.setLayer l c) o) (h16 : o.x + 16 = 0) :
    FaultsAtOnce (.setLayer l c) s .crash none := by
  refine (reachesCore_intSafe rfl hm his).faultsAtOnce ?_
  rintro ret _ ⟨ths, lk, rfl⟩
  exact setLayerTo_raises his.1 h16

/-- SET_LAYER with no configuration held. -/
theorem setLayer_noConfig (hm : s.MayRunI c) (hc : s.par.checks = false) (hn : s.cfg = 0) (his : s.Issued (.setLayer l c) o)
    (hr : recordReadable o.x = true) : FaultsAtOnce (.setLayer l c) s .crash none := by
  refine (reachesCore_intSafe rfl hm his).faultsAtOnce ?_
  rintro ret _ ⟨ths, lk, rfl⟩
  exact setLayerTo_ends his.1 hr <| applyFrame_raises his.1 hc hn

/-- SET_LAYER of a specification with an unaligned palette of at least one entry, all its checks passed. -/
theorem setLayer_unalignedPalette (hm : s.MayRunI c) (his : s.Issued (.setLayer l c) o) (hr : recordReadable o.x = true)
    (hn : s.cfg ≠ 0) (hca : aligned4 s.cfg = true)
    (hok : s.Passes (specOk (s.mem.readLe s.cfg 2) (s.mem.readLe (s.cfg + 2) 2) s.activeWindow (s.lay l).cr (specAt s.mem o.x)))
    (hl : (specAt s.mem o.x).palLen ≠ 0) (ha : aligned4 (specAt s.mem o.x).palPtr = false) :
    exec (.setLayer l c) s = .fault .misaligned := by
  refine (reachesCore_intSafe rfl hm his).stops ?_
  rintro ret _ ⟨ths, lk, rfl⟩
  have hp := ne_zero_of_unaligned ha
  rw [specOk, passes_and, passes_and, beq_eq_false_iff_ne.2 hp, Bool.false_or, passes_and] at hok
  obtain ⟨⟨hf, hw⟩, hcr, hlen⟩ := hok
  refine setLayerTo_ends his.1 hr <| applySpec_ends his.1 hn hca hf hw ?_
  rw [optPalette, if_pos hp]
  exact applyPalette_stops his.1 (by rw [lay_beforePalette_cr]; exact hcr) hlen hl ha

-- ==== START and the panel ====

theorem start_null (hm : s.MayRunS c) (his : s.Issued (.start c) o) (hd : s.Passes (s.drvState == .stop))
    (hc : s.par.checks = false) (h0 : o.x = 0) : FaultsAtOnce (.start c) s .crash none := by
  refine (reachesCore_schedLocked rfl hm his).faultsAtOnce ?_
  rintro ret _ ⟨ths, lk, rfl⟩
  obtain ⟨x, y⟩ := o
  cases h0
  exact ends_check his.1 hd <| ends_checkB his.1 (passes_unchecked hc) <| readConfig_raises his.1

theorem start_unaligned (hm : s.MayRunS c) (his : s.Issued (.start c) o) (hd : s.Passes (s.drvState == .stop))
    (ha : aligned4 o.x = false) : exec (.start c) s = .fault .misaligned := by
  refine (reachesCore_schedLocked rfl hm his).stops ?_
  rintro ret _ ⟨ths, lk, rfl⟩
  exact ends_check his.1 hd <| ends_checkB his.1 (.inr (bne_iff_ne.2 (ne_zero_of_unaligned ha))) <| readConfig_stops his.1 ha

theorem pnlStart_null (his : s.Issued .pnlStart o) (hx : s.Passes (s.ctx == .thread)) (hp : s.Passes (s.pnlState == .stop))
    (hc : s.par.checks = false) (h0 : o.x = 0) : FaultsAtOnce .pnlStart s .crash none := by
  refine (reachesCore_panel rfl rfl hx his).faultsAtOnce ?_
  rintro ret _ ⟨ths, lk, rfl⟩
  exact ends_check his.1 hp <| ends_checkB his.1 (passes_unchecked hc) <| crashCheck_raises his.1 (by simp [h0])

theorem pnlStart_unaligned (his : s.Issued .pnlStart o) (hx : s.Passes (s.ctx == .thread))
    (hp : s.Passes (s.pnlState == .stop)) (ha : aligned4 o.x = false) : exec .pnlStart s = .fault .misaligned := by
  have h0 : (o.x != 0) = true := bne_iff_ne.2 (ne_zero_of_unaligned ha)
  refine (reachesCore_panel rfl rfl hx his).stops ?_
  rintro ret _ ⟨ths, lk, rfl⟩
  exact ends_check his.1 hp <| ends_checkB his.1 (.inr h0) <| ends_crashCheck his.1 h0 <| memRd_stops his.1 ha

/-- The chunk commands' crash check, at a null buffer with bytes to move (log 28). -/
theorem nullChunk_raises {k : Prog} {buf n : Word} (h : s.sched = []) (h0 : buf = 0) (hn : n ≠ 0) :
    (crashCheck (fun _ => buf != 0 || n == 0) k).Ends s (Raised .crash s) :=
  crashCheck_raises h (by rw [h0, beq_eq_false_iff_ne.2 hn]; rfl)

theorem pnlWriteChunk_null (his : s.Issued .pnlWriteChunk o) (hc : s.par.checks = false) (h0 : o.x = 0) (hn : o.y ≠ 0) :
    FaultsAfter .pnlWriteChunk s .crash none fun t =>
      t.events = s.events ++ [.fault .crash] ∧ t.dcx = .high ∧ t.wire = s.wire ∧ t.mem = s.mem := by
  obtain ⟨c', _, ⟨ths, lk, rfl⟩, hw, he⟩ := (reachesCore_panel rfl rfl (passes_unchecked hc) his).raises (code := .crash)
    (g := fun s' => { s' with dcx := .high }) (by
      rintro ret _ ⟨ths, lk, rfl⟩
      exact chunkHead_ends his.1 hc <| nullChunk_raises his.1 h0 hn)
  refine ⟨_, c'.step, he, ?_, raise_events, by simp, by simp, by simp⟩
  rw [raise_fault, hw]
  rfl

theorem pnlReadChunk_null (his : s.Issued .pnlReadChunk o) (hc : s.par.checks = false) (h0 : o.x = 0) (hn : o.y ≠ 0) :
    FaultsAfter .pnlReadChunk s .crash none fun t =>
      t.events = s.events ++ [.fault .crash] ∧ t.dcx = .high
        ∧ t.wire = (({ s with dcx := .high } : State).receiveN o.y.toNat).wire ∧ t.mem = s.mem := by
  obtain ⟨c', _, ⟨ths, lk, rfl⟩, hw, he⟩ := (reachesCore_panel rfl rfl (passes_unchecked hc) his).raises (code := .crash)
    (g := fun s' => ({ s' with dcx := .high } : State).receiveN o.y.toNat) (by
      rintro ret _ ⟨ths, lk, rfl⟩
      exact chunkHead_ends his.1 hc <| spiReceive_ends _ _ his.1 <| nullChunk_raises his.1 h0 hn)
  refine ⟨_, c'.step, he, ?_, raise_events, ?_, ?_, ?_⟩
  · rw [raise_fault, hw]
    rfl
  all_goals simp [State.receiveN]

/-- Settles O54: each clause by the lemma above that runs its core. -/
theorem badPointers : Obligations.BadPointers := by
  refine ⟨fun l c o s hm => ⟨fun i hi his => ?_, fun his hn => ?_, fun his => ?_, getLayer_wraps hm, fun hc hn => ?_⟩,
    fun c o s hm his hd => ⟨start_null hm his hd, start_unaligned hm his hd⟩,
    fun o s => ⟨fun his hx hp => ⟨pnlStart_null his hx hp, pnlStart_unaligned his hx hp⟩, pnlWriteChunk_null,
      pnlReadChunk_null⟩⟩
  · exact ⟨NamesRecord.null_faults hi hm his, NamesRecord.unaligned_stops hi hm his⟩
  · exact ⟨setPalette_null hm his hn, setPalette_unaligned hm his hn⟩
  · exact ⟨setLayer_unaligned hm his, setLayer_wraps hm his, setLayer_unalignedPalette hm his⟩
  · exact ⟨setFrame_noConfig hm hc hn, setLayer_noConfig hm hc hn⟩

end Sys2Proof.Machine
end

section
/-! PROOFS. O22: the faults of the two handlers (R17, R31, R453, R460, R461). The runs keep the cell's step, since the marks
name it. -/

namespace Sys2Proof.Machine

variable {s : State} {c : Cell} {k : Prog} {below : List Activation}

-- ==== from entry to the branches ====

/-- A handler just entered runs its body from the first micro-step (R459). -/
theorem handler_entered {i : Instr} {v : Vec} {body : Prog} (h : s.Entered v below) :
    handler i v body s = run body ⟨v.word, ⟨0, 0⟩, 0, [], none⟩ s := by
  have hv : s.inHandler v = true := by simp [State.inHandler, h.2, Activation.entry]
  have hc : s.curCell = some ⟨v.word, ⟨0, 0⟩, 0, [], none⟩ := by simp only [State.curCell, h.2, Activation.entry]
  rw [handler, if_pos hv]
  simp only [State.resume, State.cellOf, hc]
  cases body <;> rfl

/-- EVENT_IRQ's branches come at micro-step 2, after its one sample (R460). -/
theorem eventIrq_sampled (h : s.Entered .event below) :
    exec .eventIrq s = run
      (whenFlag (s.isr &&& s.ier) 1 requiredSize (requiredCallback 32 .line flagLine) <|
        whenFlag (s.isr &&& s.ier) 8 reloadDoneSize reloadDone <| .done .unit)
      ⟨encode .eventIrq, ⟨0, 0⟩, 2, [s.ier, s.isr], none⟩ s := by
  show handler .eventIrq .event eventIrqBody s = _
  rw [handler_entered h, eventIrqBody, run_rd h.1, afterRead_eq s (r := .isr) nofun, run_rd h.1]
  rfl

/-- ERROR_IRQ's branches come at micro-step 2, after its one sample (R461). -/
theorem errorIrq_sampled (h : s.Entered .error below) :
    exec .errorIrq s = run
      (whenFlag (s.isr &&& s.ier) 2 requiredSize (requiredCallback 40 .underrun flagUnderrun) <|
        whenFlag (s.isr &&& s.ier) 4 requiredSize (requiredCallback 44 .terr flagTerr) <| .done .unit)
      ⟨encode .errorIrq, ⟨0, 0⟩, 2, [s.ier, s.isr], none⟩ s := by
  show handler .errorIrq .error errorIrqBody s = _
  rw [handler_entered h, errorIrqBody, run_rd h.1, afterRead_eq s (r := .isr) nofun, run_rd h.1]
  rfl

theorem run_whenFlag_taken {sample flag : Word} {size : Int} {body : Prog → Prog} (h : hasBits sample flag = true) :
    run (whenFlag sample flag size body k) c s = run (body k) c s := by
  rw [whenFlag, if_pos h]

/-- A branch not taken is jumped over (R31). -/
theorem run_whenFlag_skipped {sample flag : Word} {size : Int} {body : Prog → Prog} (h : hasBits sample flag = false) :
    run (whenFlag sample flag size body k) c s = run k (c.jump size 0) s := by
  rw [whenFlag, if_neg (by simp [h])]
  rfl

-- ==== the paths that fault ====

/-- The code of a null callback: the check's, or the crash check's in a build without checks (R17). -/
def nullCode (checks : Bool) : FaultCode := if checks then .nullCallback else .crash

/-- A required callback that is null: the check after its read fails, or the crash check after that (R460, R461). -/
theorem run_requiredCallback_null {off : Nat} {kind : CbKind} {flag : Word} (h : s.sched = []) (hn : s.cfg ≠ 0)
    (ha : aligned4 s.cfg = true) (h0 : s.callbackId (BitVec.ofNat 32 off) = 0) :
    ∃ c' : Cell, c'.word = c.word ∧ c'.step = (if s.par.checks then c.step + 1 else c.step + 2)
      ∧ run (requiredCallback off kind flag k) c s = .next (s.raise c' (nullCode s.par.checks) none) := by
  rw [requiredCallback, run_cfgRd h hn ha, show s.mem.readLe (s.cfg + BitVec.ofNat 32 off) 4 = 0 from h0]
  cases hc : s.par.checks with
  | true => exact ⟨c.push 0, rfl, rfl, run_checkB_fail h hc rfl⟩
  | false =>
    rw [run_checkB_pass h (.inl hc)]
    exact ⟨(c.push 0).push 0, rfl, rfl, run_crashCheck_fail h rfl⟩

/-- The critical section a handler opens (R460) is in its activation alone. -/
theorem mapTop_sameBlock (f : Activation → Activation) : (s.mapTop f).SameBlock s := by simp [State.SameBlock]

/-- A reload-done with no callback, in a state other than ACTIVE: the check under the critical section fails, three micro-steps
on from the read of the callback (R460). -/
theorem run_reloadDone_notActive (h : s.sched = []) (hn : s.cfg ≠ 0) (ha : aligned4 s.cfg = true) (h0 : s.callbackId 36 = 0)
    (hc : s.par.checks = true) (hd : s.drvState ≠ .active) :
    ∃ c' : Cell, c'.word = c.word ∧ c'.step = c.step + 4
      ∧ run (reloadDone k) c s = .next ((s.mapTop fun a => { a with crit := true }).raise c' .isrState none) := by
  rw [reloadDone, run_cfgRd h hn ha, show s.mem.readLe (s.cfg + BitVec.ofNat 32 36) 4 = 0 from h0, if_pos rfl, run_jump,
    completeReload, setCrit, run_act h]
  exact ⟨((c.push 0).jump 2 0).push 0, rfl, rfl, run_check_fail (by simpa using h) (by simpa using hc) (by simpa using hd)⟩

-- ==== the fault statements ====

variable {i : Instr} {n : Nat} {code : FaultCode}

/-- A run that raises where nothing has been written. -/
theorem faultsAtStep_of_run (hr : ∃ c' : Cell, c'.word = encode i ∧ c'.step = n ∧ exec i s = .next (s.raise c' code none)) :
    FaultsAtStep i s n code none := by
  obtain ⟨c', hw, rfl, he⟩ := hr
  exact faultsAtStep_of_raise he hw rfl rfl State.SameBlock.refl

/-- A branch that comes to a null callback: the mark has the index of the check, or of the crash check (R31, R453). -/
theorem faultsAtStep_nullCallback {off : Nat} {kind : CbKind} {flag : Word} (h : s.sched = []) (hn : s.cfg ≠ 0)
    (ha : aligned4 s.cfg = true) (h0 : s.callbackId (BitVec.ofNat 32 off) = 0) (hw : c.word = encode i)
    (he : exec i s = run (requiredCallback off kind flag k) c s) :
    FaultsAtStep i s (if s.par.checks then c.step + 1 else c.step + 2) (nullCode s.par.checks) none := by
  obtain ⟨c', hw', hs, hr⟩ := run_requiredCallback_null h hn ha h0
  exact faultsAtStep_of_run ⟨c', hw'.trans hw, hs, he.trans hr⟩

theorem eventIrq_nullLine (h : s.Entered .event below) (hn : s.cfg ≠ 0) (ha : aligned4 s.cfg = true)
    (hf : hasBits (s.isr &&& s.ier) 1 = true) (h0 : s.callbackId 32 = 0) :
    FaultsAtStep .eventIrq s (if s.par.checks then 3 else 4) (nullCode s.par.checks) none :=
  faultsAtStep_nullCallback h.1 hn ha h0 rfl <| (eventIrq_sampled h).trans (run_whenFlag_taken hf)

theorem errorIrq_nullUnderrun (h : s.Entered .error below) (hn : s.cfg ≠ 0) (ha : aligned4 s.cfg = true)
    (hf : hasBits (s.isr &&& s.ier) 2 = true) (h0 : s.callbackId 40 = 0) :
    FaultsAtStep .errorIrq s (if s.par.checks then 3 else 4) (nullCode s.par.checks) none :=
  faultsAtStep_nullCallback h.1 hn ha h0 rfl <| (errorIrq_sampled h).trans (run_whenFlag_taken hf)

theorem errorIrq_nullTerr (h : s.Entered .error below) (hn : s.cfg ≠ 0) (ha : aligned4 s.cfg = true)
    (hu : hasBits (s.isr &&& s.ier) 2 = false) (hf : hasBits (s.isr &&& s.ier) 4 = true) (h0 : s.callbackId 44 = 0) :
    FaultsAtStep .errorIrq s (if s.par.checks then 10 else 11) (nullCode s.par.checks) none :=
  faultsAtStep_nullCallback h.1 hn ha h0 rfl <|
    (errorIrq_sampled h).trans <| (run_whenFlag_skipped hu).trans (run_whenFlag_taken hf)

theorem eventIrq_notActive (h : s.Entered .event below) (hn : s.cfg ≠ 0) (ha : aligned4 s.cfg = true)
    (hl : hasBits (s.isr &&& s.ier) 1 = false) (hf : hasBits (s.isr &&& s.ier) 8 = true) (h0 : s.callbackId 36 = 0)
    (hc : s.par.checks = true) (hd : s.drvState ≠ .active) : FaultsAtStep .eventIrq s 13 .isrState none := by
  obtain ⟨c', hw, hs, hr⟩ := run_reloadDone_notActive (k := .done .unit)
    (c := (⟨encode .eventIrq, ⟨0, 0⟩, 2, [s.ier, s.isr], none⟩ : Cell).jump requiredSize 0) h.1 hn ha h0 hc hd
  have he := eventIrq_sampled h
  rw [run_whenFlag_skipped hl, run_whenFlag_taken hf, hr] at he
  have hself : (s.mapTop fun a => { a with crit := true }).self = s.self := by
    simp only [State.mapTop, h.2, State.self]
  have hm := faultsAtStep_of_raise he hw hself (by simp) (mapTop_sameBlock _)
  rwa [hs] at hm

/-- Some of two bits is set, and the first is not: the second is. -/
theorem hasBits_of_union {v a b m : Word} (hm : m = a ||| b) (h : hasBits v m = true) (ha : hasBits v a = false) :
    hasBits v b = true := by
  simp only [hasBits, bne_iff_ne, bne_eq_false_iff_eq, ne_eq] at *
  intro hb
  exact h (by rw [hm, BitVec.and_or_distrib_left, ha, hb]; rfl)

/-- A handler that serves its first flag, or jumps over it to its second, with no configuration held (R17, log 32). -/
theorem run_branches_noConfig {sample a b : Word} {size : Int} {body body' : Prog → Prog} (h : s.sched = []) (h0 : s.cfg = 0)
    (hb : ∃ (off : Nat) (k' : Word → Prog), body (whenFlag sample b size body' k) = cfgRd off 4 k')
    (hb' : ∃ (off : Nat) (k' : Word → Prog), body' k = cfgRd off 4 k')
    (hf : hasBits sample a = false → hasBits sample b = true) :
    run (whenFlag sample a requiredSize body (whenFlag sample b size body' k)) c s
      = .next (s.raise (if hasBits sample a then c else c.jump requiredSize 0) .crash none) := by
  obtain ⟨off, k', hb⟩ := hb
  obtain ⟨off', k'', hb'⟩ := hb'
  cases ha : hasBits sample a with
  | true => rw [run_whenFlag_taken ha, hb, run_cfgRd_null h h0]; rfl
  | false => rw [run_whenFlag_skipped ha, run_whenFlag_taken (hf ha), hb', run_cfgRd_null h h0]; rfl

/-- The mark's place with no configuration held: the first branch's read, or the second's. -/
theorem faultsAtStep_noConfig {b : Bool} {c : Cell} (hw : c.word = encode i) (hs : c.step = 2)
    (he : exec i s = .next (s.raise (if b then c else c.jump requiredSize 0) .crash none)) :
    FaultsAtStep i s (if b then 2 else 9) .crash none := by
  apply faultsAtStep_of_run
  cases b with
  | true => exact ⟨c, hw, hs, he⟩
  | false => exact ⟨c.jump requiredSize 0, hw, by rw [Cell.jump_step, hs]; rfl, he⟩

theorem eventIrq_noConfig (h0 : s.cfg = 0) (h : s.Entered .event below) (hf : hasBits (s.isr &&& s.ier) 9 = true) :
    FaultsAtStep .eventIrq s (if hasBits (s.isr &&& s.ier) 1 then 2 else 9) .crash none :=
  faultsAtStep_noConfig rfl rfl <| (eventIrq_sampled h).trans <|
    run_branches_noConfig h.1 h0 ⟨_, _, rfl⟩ ⟨_, _, rfl⟩ (hasBits_of_union (by decide) hf)

theorem errorIrq_noConfig (h0 : s.cfg = 0) (h : s.Entered .error below) (hf : hasBits (s.isr &&& s.ier) 6 = true) :
    FaultsAtStep .errorIrq s (if hasBits (s.isr &&& s.ier) 2 then 2 else 9) .crash none :=
  faultsAtStep_noConfig rfl rfl <| (errorIrq_sampled h).trans <|
    run_branches_noConfig h.1 h0 ⟨_, _, rfl⟩ ⟨_, _, rfl⟩ (hasBits_of_union (by decide) hf)

/-- Settles O22: each clause by the lemma above that runs its branch. -/
theorem handlerFaults : Obligations.HandlerFaults :=
  ⟨fun _ _ => eventIrq_nullLine, fun _ _ => errorIrq_nullUnderrun, fun _ _ => errorIrq_nullTerr, fun _ _ => eventIrq_notActive,
    fun _ _ h0 => ⟨eventIrq_noConfig h0, errorIrq_noConfig h0⟩⟩

end Sys2Proof.Machine
end

section
/-! PROOFS. O20: a handler's callback with a body (R113 c, R460, R461, R465). A handler comes to the callback's path through
its sample and, where the first flag is sampled too, the first path with an empty body; the path then ends at the body. -/

namespace Sys2Proof.Machine

variable {s : State} {c : Cell} {k : Prog} {v : Vec} {below : List Activation} {off : Nat} {kind : CbKind} {flag sample cb : Word}

-- ==== the callback and its path ====

/-- A body that is not empty becomes what the activation issues next, and the handler waits after this micro-step (R465). -/
theorem run_runBody_waits (h : s.sched = []) (hb : s.cbBody cb ≠ []) :
    run (runBody cb k) c s = .next ((s.mapTop fun a => { a with body := s.cbBody cb }).suspend (c.push 0)) := by
  rw [runBody, run_micro h, if_neg hb]

/-- A callback with an empty body: it is recorded, and the handler goes on (R465). -/
theorem run_callback_quiet (h : s.sched = []) (hb : s.cbBody cb = []) :
    run (callback kind cb k) c s = run k ((c.push 0).push 0) (s.addEvent (.cb kind)) := by
  rw [callback, run_act h]
  exact run_ok h (if_pos hb)

/-- A callback with a body: it is recorded, and the handler waits after the body's micro-step, the body's commands to issue
(R465). -/
theorem run_callback_waits {n : Nat} {log : List Word} (h : s.Entered v below)
    (hb : s.cbBody (s.callbackId (BitVec.ofNat 32 off)) ≠ []) :
    run (callback kind (s.callbackId (BitVec.ofNat 32 off)) k) ⟨v.word, ⟨0, 0⟩, n, log, none⟩ s
      = .next (s.called v kind (BitVec.ofNat 32 off) (n + 2) (0 :: 0 :: log) below) := by
  have hi : (s.addEvent (.cb kind)).irq = .entry v :: below := h.2
  rw [callback, run_act h.1]
  refine (run_runBody_waits (s := s.addEvent (.cb kind)) h.1 hb).trans ?_
  simp only [State.mapTop, hi, Activation.entry, State.suspend]
  rfl

/-- The acknowledge clears its flag: ICR reads 0 (R49, R460, R461). -/
theorem run_acknowledge (h : s.sched = []) (hf : flag &&& 0xF = flag) :
    run (acknowledge flag k) c s = run k ((c.push 0).push 0) (s.acked flag) := by
  have hv : (0#32 ||| flag) &&& 0xF = flag := by rw [BitVec.zero_or, hf]
  rw [acknowledge, run_rd h, afterRead_eq s (r := .icr) nofun, run_wr h, regWrite_icr, show s.regRead .icr = 0#32 from rfl, hv]
  rfl

/-- The path of a callback that is not null comes to its call (R460, R461). -/
theorem run_requiredCallback_calls (h : s.sched = []) (hn : s.cfg ≠ 0) (ha : aligned4 s.cfg = true)
    (hcb : s.callbackId (BitVec.ofNat 32 off) ≠ 0) :
    run (requiredCallback off kind flag k) c s
      = run (callback kind (s.callbackId (BitVec.ofNat 32 off)) (acknowledge flag k))
          (((c.push (s.callbackId (BitVec.ofNat 32 off))).push 0).push 0) s := by
  have hne : (s.callbackId (BitVec.ofNat 32 off) != 0) = true := bne_iff_ne.2 hcb
  rw [requiredCallback, run_cfgRd h hn ha]
  exact (run_checkB_pass h (.inr hne)).trans (run_crashCheck_pass h hne)

/-- A handler's first branch, its callback's body empty if it is taken: it serves the flag or is jumped over, and the next
branch stands 7 micro-steps on (R31, R460, R461). -/
theorem run_firstBranch_quiet (h : s.sched = []) (hn : s.cfg ≠ 0) (ha : aligned4 s.cfg = true) (hf : flag &&& 0xF = flag)
    (hq : hasBits sample flag = true → s.QuietCallback (BitVec.ofNat 32 off)) :
    run (whenFlag sample flag requiredSize (requiredCallback off kind flag) k) c s
      = run k { c with
            step := c.step + 7
            log := branchLog sample flag (s.callbackId (BitVec.ofNat 32 off)) ++ c.log }
          (if hasBits sample flag then (s.addEvent (.cb kind)).acked flag else s) := by
  cases ht : hasBits sample flag with
  | true =>
    obtain ⟨hcb, hb⟩ := hq ht
    rw [run_whenFlag_taken ht, run_requiredCallback_calls h hn ha hcb, run_callback_quiet h hb, branchLog, if_pos ht]
    exact run_acknowledge h hf
  | false =>
    have hlog : branchLog sample flag (s.callbackId (BitVec.ofNat 32 off)) = [0] := by simp [branchLog, ht]
    rw [run_whenFlag_skipped ht, hlog]
    rfl

-- ==== the paths that wait ====

/-- The path of a required callback with a body ends at the body, five micro-steps on (R460, R461, R465). -/
theorem run_requiredCallback_waits {n : Nat} {log : List Word} (h : s.Entered v below) (hn : s.cfg ≠ 0)
    (ha : aligned4 s.cfg = true) (hcb : s.callbackId (BitVec.ofNat 32 off) ≠ 0)
    (hb : s.cbBody (s.callbackId (BitVec.ofNat 32 off)) ≠ []) :
    run (requiredCallback off kind flag k) ⟨v.word, ⟨0, 0⟩, n, log, none⟩ s
      = .next (s.called v kind (BitVec.ofNat 32 off) (n + 5)
          ([0, 0, 0, 0, s.callbackId (BitVec.ofNat 32 off)] ++ log) below) :=
  (run_requiredCallback_calls h.1 hn ha hcb).trans (run_callback_waits h hb)

/-- The reload-done path with a callback with a body ends at the body, three micro-steps on, before anybody is woken (R113 c,
R460, R465). -/
theorem run_reloadDone_waits {n : Nat} {log : List Word} (h : s.Entered v below) (hn : s.cfg ≠ 0) (ha : aligned4 s.cfg = true)
    (hcb : s.callbackId 36 ≠ 0) (hb : s.cbBody (s.callbackId 36) ≠ []) :
    run (reloadDone k) ⟨v.word, ⟨0, 0⟩, n, log, none⟩ s
      = .next (s.called v .reload 36 (n + 3) ([0, 0, s.callbackId 36] ++ log) below) := by
  rw [reloadDone, run_cfgRd h.1 hn ha]
  exact (congrArg (run · _ s) (if_neg hcb)).trans (run_callback_waits h hb)

-- ==== the two handlers ====

theorem eventIrq_lineWaits (h : s.Entered .event below) (hn : s.cfg ≠ 0) (ha : aligned4 s.cfg = true)
    (hf : hasBits (s.isr &&& s.ier) 1 = true) (hcb : s.callbackId 32 ≠ 0) (hb : s.cbBody (s.callbackId 32) ≠ []) :
    exec .eventIrq s = .next (s.called .event .line 32 7 [0, 0, 0, 0, s.callbackId 32, s.ier, s.isr] below) :=
  (eventIrq_sampled h).trans <| (run_whenFlag_taken hf).trans (run_requiredCallback_waits h hn ha hcb hb)

theorem errorIrq_underrunWaits (h : s.Entered .error below) (hn : s.cfg ≠ 0) (ha : aligned4 s.cfg = true)
    (hf : hasBits (s.isr &&& s.ier) 2 = true) (hcb : s.callbackId 40 ≠ 0) (hb : s.cbBody (s.callbackId 40) ≠ []) :
    exec .errorIrq s = .next (s.called .error .underrun 40 7 [0, 0, 0, 0, s.callbackId 40, s.ier, s.isr] below) :=
  (errorIrq_sampled h).trans <| (run_whenFlag_taken hf).trans (run_requiredCallback_waits h hn ha hcb hb)

/-- A flag served first leaves what the reload-done path reads, and the activation. -/
theorem eventIrq_reloadWaits (h : s.Entered .event below) (hn : s.cfg ≠ 0) (ha : aligned4 s.cfg = true)
    (hq : hasBits (s.isr &&& s.ier) 1 = true → s.QuietCallback 32) (hf : hasBits (s.isr &&& s.ier) 8 = true)
    (hcb : s.callbackId 36 ≠ 0) (hb : s.cbBody (s.callbackId 36) ≠ []) :
    exec .eventIrq s = .next
      ((if hasBits (s.isr &&& s.ier) 1 then s.servedLine else s).called .event .reload 36 12
        ([0, 0, s.callbackId 36] ++ branchLog (s.isr &&& s.ier) 1 (s.callbackId 32) ++ [s.ier, s.isr]) below) := by
  refine ((eventIrq_sampled h).trans (run_firstBranch_quiet h.1 hn ha (by decide) hq)).trans ?_
  rw [run_whenFlag_taken hf, List.append_assoc]
  cases hasBits (s.isr &&& s.ier) 1 with
  | true => exact run_reloadDone_waits (s := s.servedLine) h hn ha hcb hb
  | false => exact run_reloadDone_waits h hn ha hcb hb

theorem errorIrq_terrWaits (h : s.Entered .error below) (hn : s.cfg ≠ 0) (ha : aligned4 s.cfg = true)
    (hq : hasBits (s.isr &&& s.ier) 2 = true → s.QuietCallback 40) (hf : hasBits (s.isr &&& s.ier) 4 = true)
    (hcb : s.callbackId 44 ≠ 0) (hb : s.cbBody (s.callbackId 44) ≠ []) :
    exec .errorIrq s = .next
      ((if hasBits (s.isr &&& s.ier) 2 then s.servedUnderrun else s).called .error .terr 44 14
        ([0, 0, 0, 0, s.callbackId 44] ++ branchLog (s.isr &&& s.ier) 2 (s.callbackId 40) ++ [s.ier, s.isr]) below) := by
  refine ((errorIrq_sampled h).trans (run_firstBranch_quiet h.1 hn ha (by decide) hq)).trans ?_
  rw [run_whenFlag_taken hf, List.append_assoc]
  cases hasBits (s.isr &&& s.ier) 2 with
  | true => exact run_requiredCallback_waits (s := s.servedUnderrun) h hn ha hcb hb
  | false => exact run_requiredCallback_waits h hn ha hcb hb

/-- Settles O20: each of the four callbacks by the lemma above that runs its path. -/
theorem handlerWaitsForTheCallbackBody : Obligations.HandlerWaitsForTheCallbackBody :=
  ⟨fun _ _ h hn ha => ⟨eventIrq_lineWaits h hn ha, eventIrq_reloadWaits h hn ha⟩,
    fun _ _ h hn ha => ⟨errorIrq_underrunWaits h hn ha, errorIrq_terrWaits h hn ha⟩⟩

end Sys2Proof.Machine
end

section
/-! PROOFS. O51: the panel's chunk transfers (R103, R381, R392, R393). One rule per loop, by induction on the bytes it moves. -/

namespace Sys2Proof.Machine

variable {s t : State} {E : Cell → Out → Prop} {k : Prog} {v : ResultVal} {i : Instr} {o : Operands} {buf n : Word}

/-- The end of a run that returns `v` in `t` (R30, R31). -/
def Returned (t : State) (v : ResultVal) (c : Cell) (o : Out) : Prop := o = .next (t.finish c.word v)

theorem done_returns : (Prog.done v).Ends s (Returned s v) := fun c => ⟨c, rfl, run_done v c s⟩

/-- A panel command whose context check passes completes as its core returns (R154, R380). -/
theorem completes_of_panelCore (hc : i.cls = some .api) (hp : i.isPanel = true) (hx : s.Passes (s.ctx == .thread))
    (hi : s.Issued i o) (hr : (i.coreOf s.par.useWait o .done).Ends s (Returned t v)) : Completes i s t v := by
  have hw : i.wellFormed true s.par.useMutex = true :=
    wellFormed_of_cls _ hc (by rintro rfl; exact absurd hp (by decide)) (by rintro rfl; exact absurd hp (by decide))
  have he : exec i s = run (i.coreOf s.par.useWait o .done) ⟨encode i, o, 2, [0, 0], none⟩ s := by
    rw [exec_eq_command s hc, command_issued hi, dispatch, run_decodeStep hi.1 hw]
    exact run_check_pass hi.1 hx
  obtain ⟨c', hcw, hret⟩ := hr ⟨encode i, o, 2, [0, 0], none⟩
  rw [Completes, he, hret, hcw]

/-- The head of a chunk command drives D/CX to data once its checks pass (R392, R393, R395). -/
theorem chunkHead_passes (h : s.sched = []) (hs : s.Passes (s.pnlState == .active)) (hl : s.Passes (decide (1 ≤ n)))
    (h0 : s.Passes (buf != 0)) (hk : k.Ends { s with dcx := .high } E) : (chunkHead buf n k).Ends s E :=
  ends_check h hs <| ends_checkB h hl <| ends_checkB h h0 <| ends_act h hk

/-- The address of the next byte of a chunk. -/
theorem chunk_addr_succ (buf : Word) (j : Nat) : buf + BitVec.ofNat 32 (j + 1) = buf + BitVec.ofNat 32 j + 1 := by
  rw [BitVec.ofNat_add, ← BitVec.add_assoc]; rfl

/-- The loop over a chunk buffer hands over its bytes, the lowest address first (R103, R392). -/
theorem readChunk_ends {k : List Byte → Prog} (n j : Nat) (acc : List Byte) (h : s.sched = [])
    (hk : (k (acc.reverse ++ bytesAt s.mem (buf + BitVec.ofNat 32 j) n)).Ends s E) : (readChunk buf n j acc k).Ends s E := by
  induction n generalizing j acc with
  | zero => exact ends_jump (by simpa [bytesAt] using hk)
  | succ n ih =>
    refine .of_push (fun _ => run_byteRd h) <| ends_jump <| ih _ _ ?_
    have hb : bytesAt s.mem (buf + BitVec.ofNat 32 j) (n + 1)
        = s.mem.byteAt (buf + BitVec.ofNat 32 j) :: bytesAt s.mem (buf + BitVec.ofNat 32 (j + 1)) n := by
      simp [bytesAt, List.range_succ_eq_map, BitVec.ofNat_add, BitVec.add_assoc, BitVec.add_comm 1#32]
    rw [hb] at hk
    simpa using hk

/-- `SpiSend` records a TX entry for each byte, framed with the present levels, in their order (R381). -/
theorem spiSend_ends (d : List Byte) (h : s.sched = [])
    (hk : k.Ends { s with wire := s.wire ++ d.map fun b => ⟨.tx, s.dcx, s.cs, b⟩ } E) : (spiSend d k).Ends s E := by
  induction d generalizing s with
  | nil => exact ends_jump (by simpa using hk)
  | cons b rest ih =>
    exact .of_push (fun _ => run_spiTx h) <| ends_jump <| ih h (by simpa [State.addWire] using hk)

/-- The store loop leaves the bytes in host memory, the first at the lowest address (R103, R393). -/
theorem storeChunk_ends (d : List Byte) (j : Nat) (h : s.sched = [])
    (hk : k.Ends { s with mem := s.mem.storeBytes (buf + BitVec.ofNat 32 j) d } E) : (storeChunk buf j d k).Ends s E := by
  induction d generalizing s j with
  | nil => exact ends_jump hk
  | cons b rest ih =>
    refine .of_push (fun _ => run_byteWr h) <| ends_jump <| ih _ h ?_
    rw [chunk_addr_succ]
    exact hk

/-- The chunk commands' crash check passes at a buffer, and at none with no bytes to move (log 28). -/
theorem chunk_notNull (h : buf ≠ 0 ∨ n = 0) : (buf != 0 || n == 0) = true := by simpa using h

theorem pnlWriteChunk_completes (hi : s.Issued .pnlWriteChunk o) (hx : s.Passes (s.ctx == .thread))
    (hs : s.Passes (s.pnlState == .active)) (hl : s.Passes (decide (1 ≤ o.y))) (h0 : s.Passes (o.x != 0))
    (hb : o.x ≠ 0 ∨ o.y = 0) :
    Completes .pnlWriteChunk s
      { s with
        dcx := .high
        wire := s.wire ++ (bytesAt s.mem o.x o.y.toNat).map fun b => ⟨.tx, .high, s.cs, b⟩ } .unit := by
  refine completes_of_panelCore rfl rfl hx hi <| chunkHead_passes hi.1 hs hl h0 <| ends_crashCheck hi.1 (chunk_notNull hb) <|
    readChunk_ends _ _ _ hi.1 <| spiSend_ends _ hi.1 ?_
  simpa using done_returns

theorem pnlReadChunk_completes (hi : s.Issued .pnlReadChunk o) (hx : s.Passes (s.ctx == .thread))
    (hs : s.Passes (s.pnlState == .active)) (hl : s.Passes (decide (1 ≤ o.y))) (h0 : s.Passes (o.x != 0))
    (hb : o.x ≠ 0 ∨ o.y = 0) :
    Completes .pnlReadChunk s
      { ({ s with dcx := .high } : State).receiveN o.y.toNat with
        mem := s.mem.storeBytes o.x ((List.range o.y.toNat).map fun j => Config.spiRx (s.draws + j)) } .unit := by
  refine completes_of_panelCore rfl rfl hx hi <| chunkHead_passes hi.1 hs hl h0 <| spiReceive_ends _ _ hi.1 <|
    ends_crashCheck hi.1 (chunk_notNull hb) <| storeChunk_ends _ _ hi.1 ?_
  simpa [State.receiveN] using done_returns

/-- Settles O51: the head, the crash check and the loops of each command, each by its rule. -/
theorem panelChunksComplete : Obligations.PanelChunksComplete :=
  fun _ _ hx hs hl h0 hb =>
    ⟨fun hi => pnlWriteChunk_completes hi hx hs hl h0 hb, fun hi => pnlReadChunk_completes hi hx hs hl h0 hb⟩

end Sys2Proof.Machine
end

section
/-! PROOFS. O1 to O4: the decoder and the encoder agree (R140 to R147). A command word is its three fields, bit by bit; a row of
the opcode map fixes which of L and C may be 1, and its OP; so a fact about every word is a fact about the map's rows. -/

namespace Sys2Proof

-- ==== the fields of a command word ====

/-- CMD16 bit by bit (R140). -/
theorem getLsbD_cmdWord (op : Byte) (l c : Bool) (n : Nat) :
    (cmdWord op l c).getLsbD n = (op.getLsbD n || (decide (n = 8) && l) || (decide (n = 9) && c)) := by
  rcases (by omega : n < 8 ∨ n = 8 ∨ n = 9 ∨ 10 ≤ n) with h | rfl | rfl | h
  · simp [cmdWord, h, show n < 16 by omega, show n < 9 by omega, show n ≠ 8 by omega, show n ≠ 9 by omega]
  · cases c <;> simp [cmdWord]
  · cases l <;> simp [cmdWord]
  · simp [cmdWord, show n ≠ 8 by omega, show n ≠ 9 by omega, BitVec.getLsbD_ofBool, show ¬ n - 8 = 0 by omega,
      show ¬ n - 9 = 0 by omega, BitVec.getLsbD_of_ge op n (by omega)]

/-- The reserved field is zero when each of the bits 15:10 is. -/
theorem reservedField_eq_zero_iff {w : CmdWord} : reservedField w = 0 ↔ ∀ n, 10 ≤ n → n < 16 → w.getLsbD n = false := by
  constructor
  · intro h n hn hw
    have hb := congrArg (·.getLsbD (n - 10)) h
    simpa [reservedField, show n - 10 < 6 by omega, show 10 + (n - 10) = n by omega] using hb
  · intro h
    refine BitVec.eq_of_getLsbD_eq fun n hn => ?_
    simp [reservedField, h (10 + n) (by omega) (by omega)]

/-- The mask of R146 (a) shows the reserved field. -/
theorem reservedMask_eq_zero_iff {w : CmdWord} : w &&& 0xFC00 = 0 ↔ reservedField w = 0 := by
  have hm (n : Nat) (h : n < 16) : (0xFC00#16).getLsbD n = decide (10 ≤ n) := by revert n; decide
  rw [reservedField_eq_zero_iff]
  constructor
  · intro h n hn hw
    have hb := congrArg (·.getLsbD n) h
    simpa [-BitVec.getLsbD_eq_getElem, hm n hw, hn] using hb
  · intro h
    refine BitVec.eq_of_getLsbD_eq fun n hn => ?_
    have hb := h n
    by_cases hl : 10 ≤ n <;> simp_all

@[simp] theorem opField_cmdWord (op : Byte) (l c : Bool) : opField (cmdWord op l c) = op.toNat := by
  have hop : (cmdWord op l c).extractLsb' 0 8 = op := by
    refine BitVec.eq_of_getLsbD_eq fun n hn => ?_
    simp [getLsbD_cmdWord, hn, show n ≠ 8 by omega, show n ≠ 9 by omega]
  rw [opField, hop]

@[simp] theorem layerBit_cmdWord (op : Byte) (l c : Bool) : layerBit (cmdWord op l c) = l := by
  rw [layerBit, getLsbD_cmdWord]; simp

@[simp] theorem formBit_cmdWord (op : Byte) (l c : Bool) : formBit (cmdWord op l c) = c := by
  rw [formBit, getLsbD_cmdWord]; simp

@[simp] theorem reservedField_cmdWord (op : Byte) (l c : Bool) : reservedField (cmdWord op l c) = 0 :=
  reservedField_eq_zero_iff.2 fun n hn _ => by
    simp [getLsbD_cmdWord, BitVec.getLsbD_of_ge op n (by omega), show n ≠ 8 by omega, show n ≠ 9 by omega]

/-- With its reserved bits zero a word is what its three fields make. -/
theorem cmdWord_fields {w : CmdWord} (h : reservedField w = 0) :
    cmdWord (w.extractLsb' 0 8) (layerBit w) (formBit w) = w := by
  refine BitVec.eq_of_getLsbD_eq fun n hn => ?_
  rw [getLsbD_cmdWord]
  rcases (by omega : n < 8 ∨ n = 8 ∨ n = 9 ∨ 10 ≤ n) with hl | rfl | rfl | hl
  · simp [hl, show n ≠ 8 by omega, show n ≠ 9 by omega]
  · simp [layerBit]
  · simp [formBit]
  · simp [reservedField_eq_zero_iff.1 h n hl hn, show ¬ n < 8 by omega, show n ≠ 8 by omega, show n ≠ 9 by omega]

@[simp] theorem layerOf_bit (l : Layer) : layerOf l.bit = l := by cases l <;> rfl

@[simp] theorem formOf_bit (c : Form) : formOf c.bit = c := by cases c <;> rfl

-- ==== the rows of the opcode map ====

/-- The row may have L = 1 (R146 c). -/
def OpRow.admitsLayer : OpRow → Bool
  | .layered _ => true
  | .plain _ | .formed _ => false

/-- The row may have C = 1 (R146 d). -/
def OpRow.admitsForm : OpRow → Bool
  | .layered _ | .formed _ => true
  | .plain _ => false

/-- What is decoded, if it is an instruction, has the word `w` (R145). -/
def Decoded.hasWord (w : CmdWord) : Decoded → Bool
  | .instr i => encode i == w
  | .illegal _ => true

/-- A row refuses exactly a bit it does not allow (R146 c, d). -/
theorem applyRow_illegal_iff {l c : Bool} {r : OpRow} :
    (∃ e, applyRow l c r = .illegal e) ↔ (l = true ∧ r.admitsLayer = false) ∨ (c = true ∧ r.admitsForm = false) := by
  cases r <;> cases l <;> cases c <;> simp [applyRow, OpRow.admitsLayer, OpRow.admitsForm]

theorem mem_of_findOp {op : Nat} {r : OpRow} {t : List (Nat × OpRow)} (h : findOp op t = some r) : (op, r) ∈ t := by
  fun_induction findOp op t with
  | case1 => cases h
  | case2 r' rest => cases h; simp
  | case3 n r' rest hn ih => exact List.mem_cons_of_mem _ (ih h)

theorem findOp_eq_none_iff {op : Nat} {t : List (Nat × OpRow)} : findOp op t = none ↔ op ∉ t.map Prod.fst := by
  fun_induction findOp op t with
  | case1 => simp
  | case2 r' rest => simp
  | case3 n r' rest hn ih => simp [ih, Ne.symm hn]

/-- The OPs of the map, in five ranges (R144). -/
theorem opTable_ops : opTable.map Prod.fst
    = List.range' 0 10 ++ List.range' 0x10 7 ++ List.range' 0x20 32 ++ List.range' 0x40 3 ++ List.range' 0x80 12 := rfl

/-- The map has no row exactly at the OPs between and above its ranges (R144, R147). -/
theorem findOp_opTable_eq_none_iff {op : Nat} : findOp op opTable = none ↔
    (0x09 < op ∧ op < 0x10) ∨ (0x16 < op ∧ op < 0x20) ∨ (0x42 < op ∧ op < 0x80) ∨ 0x8B < op := by
  rw [findOp_eq_none_iff, opTable_ops]
  simp only [List.mem_append, List.mem_range'_1]
  omega

/-- Which rows allow L = 1 and C = 1, by their OPs (R145), row by row. -/
theorem opTable_admits : ∀ p ∈ opTable, (p.2.admitsLayer = true ↔ 0x20 ≤ p.1 ∧ p.1 ≤ 0x3F)
    ∧ (p.2.admitsForm = true ↔ (0x01 ≤ p.1 ∧ p.1 ≤ 0x05) ∨ (0x10 ≤ p.1 ∧ p.1 ≤ 0x3F)) := by decide

/-- What a row reads from L and C has the word of these fields (R145), row by row. -/
theorem opTable_hasWord : ∀ p ∈ opTable, ∀ l c : Bool,
    (applyRow l c p.2).hasWord (cmdWord (BitVec.ofNat 8 p.1) l c) = true := by decide

-- ==== decoding ====

theorem decode_eq_instr_iff {w : CmdWord} {i : Instr} : decode w = .instr i ↔
    reservedField w = 0 ∧ ∃ r, findOp (opField w) opTable = some r ∧ applyRow (layerBit w) (formBit w) r = .instr i := by
  unfold decode
  split
  · cases findOp (opField w) opTable <;> simp_all
  · simp_all

theorem decode_illegal_iff {w : CmdWord} : (∃ e, decode w = .illegal e) ↔
    reservedField w ≠ 0 ∨ findOp (opField w) opTable = none
      ∨ ∃ r, findOp (opField w) opTable = some r ∧ ∃ e, applyRow (layerBit w) (formBit w) r = .illegal e := by
  unfold decode
  split
  · cases findOp (opField w) opTable <;> simp_all
  · simp_all

section Rows

variable {op : Byte} {l : Layer} {c : Form} {i : Instr}

theorem decode_plain (h : findOp op.toNat opTable = some (.plain i)) : decode (cmdWord op false false) = .instr i := by
  simp [decode_eq_instr_iff, h, applyRow]

theorem decode_formed {f : Form → Instr} (h : findOp op.toNat opTable = some (.formed f)) :
    decode (cmdWord op false c.bit) = .instr (f c) := by
  simp [decode_eq_instr_iff, h, applyRow]

theorem decode_layered {f : Layer → Form → Instr} (h : findOp op.toNat opTable = some (.layered f)) :
    decode (cmdWord op l.bit c.bit) = .instr (f l c) := by
  simp [decode_eq_instr_iff, h, applyRow]

end Rows

/-- Settles O1: each command's OP finds its row, of one of the three kinds, and the row reads L and C back. -/
theorem encodeDecodes : Obligations.EncodeDecodes := by
  intro i
  cases i with
  | init | acquireBus | releaseBus | eventIrq | errorIrq | bpp | toArgb8888 | fromArgb8888 | pnlObjectInit | pnlStart
  | pnlStop | pnlAcquireBus | pnlReleaseBus | pnlSelect | pnlUnselect | pnlWriteCommand | pnlWriteByte | pnlReadByte
  | pnlWriteChunk | pnlReadChunk => exact decode_plain rfl
  | start | stop | isReloading | startReload | reloadWait | getGlobalFlags | setGlobalFlags | getClearColor
  | setClearColor | getLinePos | setLinePos | getCurrentPos => exact decode_formed rfl
  | _ => exact decode_layered rfl

/-- Settles O2: the row found has the word of the three fields, and with the reserved bits zero these are the whole word. -/
theorem decodeIsInjective : Obligations.DecodeIsInjective := by
  intro w i h
  obtain ⟨hz, r, hr, ha⟩ := decode_eq_instr_iff.1 h
  have hw := opTable_hasWord _ (mem_of_findOp hr) (layerBit w) (formBit w)
  have hop : BitVec.ofNat 8 (opField w) = w.extractLsb' 0 8 := BitVec.ofNat_toNat _ _
  simpa [ha, Decoded.hasWord, hop, cmdWord_fields hz] using hw

/-- Settles O4: no row is an OP in a gap; a row found is outside the gaps and refuses the bits it does not allow. -/
theorem decoderRefusesExactlyTheReserved : Obligations.DecoderRefusesExactlyTheReserved := by
  intro w
  rw [decode_illegal_iff, ne_eq, ← reservedMask_eq_zero_iff]
  cases hf : findOp (opField w) opTable with
  | none => rcases findOp_opTable_eq_none_iff.1 hf with hg | hg | hg | hg <;> simp [hg]
  | some r =>
    have hgap := (not_congr findOp_opTable_eq_none_iff).1 (by simp [hf] : ¬findOp (opField w) opTable = none)
    obtain ⟨hl, hc⟩ := opTable_admits _ (mem_of_findOp hf)
    simp only [not_or] at hgap
    simp only [hgap, Option.some.injEq, exists_eq_left', applyRow_illegal_iff, ← Bool.not_eq_true, hl, hc, layerBit, formBit,
      reduceCtorEq, false_or]

/-- A word written out decodes to the command it is the word of. -/
theorem decode_of_encode {w : CmdWord} {i : Instr} (h : encode i = w) : decode w = .instr i := h ▸ encodeDecodes i

/-- Settles O3: each is the word of its command. -/
theorem sampleWordsDecode : Obligations.SampleWordsDecode := by
  refine ⟨?_, ?_, ?_, ?_, ?_, ?_, ?_, ?_⟩ <;> exact decode_of_encode (by decide)

end Sys2Proof
end

section
/-! PROOFS. O5, O12, O13, O15: what ends a command before its core (R146, R147, R154, R455): a word that is illegal, for every
issuer or for this one, a context its class does not allow, and a lock taken where it may not be. -/

namespace Sys2Proof.Machine

variable {s : State} {c : Cell} {w : CmdWord} {i : Instr} {o : Operands} {cl : CmdClass} {v : Vec}

-- ==== illegal for every issuer ====

/-- A word that does not decode runs the illegal-command fault (R146, R451). -/
theorem execWord_of_illegal {e : DecodeError} (h : decode w = .illegal e) :
    s.execWord w = s.resume w fun _ => raiseIllegal w := by
  simp only [State.execWord, h]

theorem run_raiseIllegal (h : s.sched = []) : run (raiseIllegal w) c s = .next (s.raise c .illegalCommand (some w)) :=
  run_raise h rfl

/-- Settles O5: an OP in a gap has no row, so the word does not decode, and its first micro-step raises. -/
theorem reservedOpNeverExecutes : Obligations.ReservedOpNeverExecutes := by
  intro w s o hgap hs hc
  obtain ⟨e, he⟩ := decode_illegal_iff.2 (.inr (.inl (findOp_opTable_eq_none_iff.2 hgap)))
  rw [execWord_of_illegal he, resume_issued hc, run_raiseIllegal hs]

-- ==== the context of the issuer ====

/-- A command with a class is legal for software in every build that has it (R146 e, f). -/
theorem wellFormed_of_presentIn {b : Bool} (h : i.cls = some cl) (hp : i.presentIn b = true) :
    i.wellFormed true b = true := by
  have hirq : ¬(i = .eventIrq ∨ i = .errorIrq) := mt cls_none_iff.2 (by simp [h])
  simpa [Instr.wellFormed, Instr.softwareMayIssue, hp] using hirq

/-- A class that does not allow every context checks it after the decode (R154). -/
theorem dispatch_ctxCheck {core : Core} {x : Ctx} (h : cl.admits x = false) :
    ∃ k, dispatch i cl core = decodeStep i (ctxCheck cl.admits k) := by
  cases cl with
  | init | pure => cases h
  | api => exact ⟨_, rfl⟩
  | schedLocked f | intSafe f => cases f <;> exact ⟨_, rfl⟩

/-- Settles O12: the decode passes, and the context check raises. -/
theorem wrongContextFaults : Obligations.WrongContextFaults := by
  intro i cl o s hi hp hcl hx hk
  obtain ⟨k, hd⟩ := dispatch_ctxCheck (i := i) (core := i.coreOf s.par.useWait o) hx
  rw [exec_eq_command s hcl, command_issued hi, hd, run_decodeStep hi.1 (wellFormed_of_presentIn hcl hp),
    run_ctxCheck_fail hi.1 hk hx]
  rfl

/-- `lock()` from THREAD_LOCKED or ISR leaves the agent without a step (R455). -/
theorem run_lockStep_notAdmitted {k : Prog} (h : s.sched = []) (hc : s.ctx ≠ .thread) :
    run (lockStep k) c s = .fault .lockNotAdmitted := by
  rw [lockStep, run_micro h]
  cases hx : s.ctx with
  | thread => exact absurd hx hc
  | locked | isr => rfl

/-- Settles O13: the decode passes, the check is skipped, and `lock()` has no step. -/
theorem apiFormStuckWithoutChecks : Obligations.ApiFormStuckWithoutChecks := by
  intro i cl o s hi hcl htl hc hk
  have hw : i.wellFormed true s.par.useMutex = true :=
    wellFormed_of_form _ ((takesLock_iff.1 htl).imp (fun e => e ▸ hcl) fun e => e ▸ hcl)
  rw [exec_eq_command s hcl, command_issued hi, dispatch_takesLock htl, run_decodeStep hi.1 hw, ctxCheck,
    run_check_pass hi.1 (.inl hk), apiWrap, run_lockStep_notAdmitted hi.1 hc]

-- ==== illegal for this issuer, or in this build ====

/-- A thread, or a command of a callback body, is no handler (R457, R465). -/
theorem inHandler_eq_false (h : ∀ a below, s.irq = a :: below → a.bodyCell ≠ none) : s.inHandler v = false := by
  unfold State.inHandler
  split
  next a below hq => simp [Option.isNone_eq_false_iff, Option.isSome_iff_ne_none, h a below hq]
  next => rfl

/-- A handler's word outside the handler is illegal (R146 e). -/
theorem handler_illegal {body : Prog} (hv : s.inHandler v = false) (hi : s.Issued i o) :
    handler i v body s = .next (s.raise ⟨encode i, o, 0, [], none⟩ .illegalCommand (some (encode i))) := by
  rw [handler, hv, if_neg Bool.false_ne_true, resume_issued hi.2, run_raiseIllegal hi.1]

/-- A command that the build does not have is illegal (R146 f, R154). -/
theorem exec_illegal (hi : s.Issued i o) (hcl : i.cls = some cl) (hw : i.wellFormed true s.par.useMutex = false) :
    exec i s = .next (s.raise ⟨encode i, o, 0, [], none⟩ .illegalCommand (some (encode i))) := by
  rw [exec_eq_command s hcl, command_issued hi]
  exact run_decodeStep_illegal hi.1 hw

/-- Settles O15: a handler's word by its handler's test of the issuer, a mutex word by the decode micro-step. -/
theorem illegalForTheIssuerFaults : Obligations.IllegalForTheIssuerFaults := by
  refine ⟨fun v o s hs hirq hc => ?_, fun i o s hi his hm => ?_⟩
  · have hv : s.inHandler v = false := inHandler_eq_false hirq
    cases v with
    | event => exact (execWord_of_decode (encodeDecodes .eventIrq)).trans (handler_illegal hv ⟨hs, hc⟩)
    | error => exact (execWord_of_decode (encodeDecodes .errorIrq)).trans (handler_illegal hv ⟨hs, hc⟩)
  · rcases hi with rfl | rfl <;> exact exec_illegal his rfl (by rw [hm]; rfl)

end Sys2Proof.Machine
end

section
/-! PROOFS. More rules of undisturbed runs: reads of the global registers, polls that a commit ends, checks that fail, and what
comes of a core that returns or raises, for each class of command (R15, R17, R142, R154, R201). -/

namespace Sys2Proof.Machine

variable {s t : State} {E : Cell → Out → Prop} {k : Prog} {code : FaultCode} {i : Instr} {o : Operands} {v : ResultVal}

-- ==== one rule per primitive ====

theorem ends_rdReg {r : Reg} {k : Word → Prog} (hr : r ≠ .cpsr) (h : s.sched = []) (hk : (k (s.regRead r)).Ends s E) :
    (rd r k).Ends s E :=
  .of_push (fun _ => (run_rd h).trans (by rw [afterRead_eq s hr])) hk

/-- A check that fails raises (R17). -/
theorem check_raises {g : State → Bool} (h : s.sched = []) (hc : s.par.checks = true) (hg : g s = false) :
    (check g code k).Ends s (Raised code s) := fun c => ⟨c, rfl, run_check_fail h hc hg⟩

theorem checkB_raises {b : Bool} (h : s.sched = []) (hc : s.par.checks = true) (hb : b = false) :
    (checkB b code k).Ends s (Raised code s) := check_raises h hc hb

/-- A run that may end in the raise of the check it stands at has only the passing of that check left to account for (R17). -/
theorem ends_checkB_or {b : Bool} (h : s.sched = []) (hc : s.par.checks = true)
    (hE : ∀ c : Cell, E c (.next (s.raise c code none))) (hk : b = true → k.Ends s E) : (checkB b code k).Ends s E := by
  cases hb : b with
  | false => exact fun c => ⟨c, rfl, (run_checkB_fail h hc rfl).symm ▸ hE c⟩
  | true => exact ends_checkB h (.inr rfl) (hk hb)

/-- A poll of a requested bit, with the commit due, ends after the commit with the lock taken back (R201, R206, log 2). -/
theorem ends_pollCommit {mask : Word} (h : s.sched = []) (hb : hasBits s.srcr mask = true) (hc : s.commitEnabled = true)
    (hk : k.Ends (s.commit.takeBack s.self) E) : (Prog.poll .read mask k).Ends s E :=
  fun c => run_poll_commit h hb hc ▸ hk (c.push 0).skipYield

-- ==== from the core to the command ====

/-- The threads and the scheduler lock replaced, which is all that an api form's `lock()` does (R36, R143). -/
def State.withLock (s : State) (ths : List Thread) (lk : Option Agent) : State := { s with threads := ths, lockHolder := lk }

@[simp] theorem withLock_drvState {ths : List Thread} {lk : Option Agent} : (s.withLock ths lk).drvState = s.drvState := rfl
@[simp] theorem withLock_pnlState {ths : List Thread} {lk : Option Agent} : (s.withLock ths lk).pnlState = s.pnlState := rfl

theorem sameButLock_withLock {ths : List Thread} {lk : Option Agent} : (s.withLock ths lk).SameButLock s := ⟨ths, lk, rfl⟩

/-- A core that ends as `E` says makes the command end so. -/
theorem ReachesCore.ends {E : State → Cell → Out → Prop} (h : ReachesCore i o s)
    (hr : ∀ ret s', s'.SameButLock s → (i.coreOf s.par.useWait o ret).Ends s' (E s')) :
    ∃ (c : Cell) (s' : State), s'.SameButLock s ∧ c.word = encode i ∧ E s' c (exec i s) := by
  obtain ⟨ret, c, s', hs, hw, he⟩ := h
  obtain ⟨c', hw', hE⟩ := hr ret s' hs c
  exact ⟨c', s', hs, hw'.trans hw, he ▸ hE⟩

/-- A core that raises after it has written what `t` holds. -/
theorem ReachesCore.faultsLeaving (h : ReachesCore i o s) (hself : t.self = s.self)
    (hr : ∀ ret s', s'.SameButLock s → ∃ t', t'.SameButLock t ∧ (i.coreOf s.par.useWait o ret).Ends s' (Raised code t')) :
    FaultsLeaving i s t code none := by
  obtain ⟨c, s', -, hw, t', ⟨ths, lk, rfl⟩, he⟩ := h.ends
    (E := fun _ c out => ∃ t', t'.SameButLock t ∧ Raised code t' c out) (fun ret s' hs c => by
      obtain ⟨t', ht, hE⟩ := hr ret s' hs
      obtain ⟨c', hw, hE⟩ := hE c
      exact ⟨c', hw, t', ht, hE⟩)
  refine ⟨_, c.step, he, ?_, raise_events, sameBlock_raise State.SameBlock.refl⟩
  rw [raise_fault, hw, ← hself]
  rfl

/-- The commands that every context may issue come to their core after the decode (R154). -/
theorem reachesCore_anyContext (hc : i.cls = some .init ∨ i.cls = some .pure) (hi : s.Issued i o) : ReachesCore i o s := by
  refine ⟨.done, ⟨encode i, o, 1, [0], none⟩, s, sameButLock_refl, rfl, ?_⟩
  have hw {cl : CmdClass} (hc : i.cls = some cl) (hcl : cl ≠ .api) : i.wellFormed true s.par.useMutex = true :=
    wellFormed_of_cls _ hc (by rintro rfl; exact hcl (Option.some.inj hc).symm)
      (by rintro rfl; exact hcl (Option.some.inj hc).symm)
  rcases hc with hc | hc
  · rw [exec_eq_command s hc, command_init hi (hw hc nofun)]
  · rw [exec_eq_command s hc, command_pure hi (hw hc nofun)]

/-- A panel or mutex command whose context check passes is its core from micro-step 2 (R154, R380). -/
theorem exec_api (hc : i.cls = some .api) (hw : i.wellFormed true s.par.useMutex = true) (hx : s.Passes (s.ctx == .thread))
    (hi : s.Issued i o) : exec i s = run (i.coreOf s.par.useWait o .done) ⟨encode i, o, 2, [0, 0], none⟩ s := by
  rw [exec_eq_command s hc, command_issued hi, dispatch, run_decodeStep hi.1 hw]
  exact run_check_pass hi.1 hx

/-- A class S command whose core returns `v` and leaves what `g` says, the lock taken back by the agent that runs it (R143,
R206): the api form then opens its critical section. -/
theorem completes_schedLocked {form : Form} {g : State → State} (hc : i.cls = some (.schedLocked form)) (hm : s.MayRunS form)
    (hi : s.Issued i o)
    (hr : ∀ ret s' E, s'.SameButLock s → (ret v).Ends ((g s').takeBack s.self) E → (i.coreOf s.par.useWait o ret).Ends s' E)
    (hg : ∀ ths lk, g (s.withLock ths lk) = (g s).withLock ths lk)
    (hcur : (g s).cur = s.cur) (hsched : (g s).sched = []) :
    Completes i s { g s with lockHolder := s.lockAfterWait form } v := by
  have he := exec_eq_command s hc
  have hw := wellFormed_of_form s.par.useMutex (.inr hc)
  cases form with
  | api =>
    obtain ⟨hctx, hl⟩ := hm
    have hths : (g s).threads = s.threads := by
      have := congrArg State.threads (hg s.threads s.lockHolder)
      exact this
    have ht : g (s.takeLock s.cur) = (g s).withLock (s.takeLock s.cur).threads (some (.thread s.cur)) := hg _ _
    have hgt : ((g (s.takeLock s.cur)).takeBack s.self).releaseLock s.cur = { g s with lockHolder := none } := by
      have hu := modify_unlock_lock (l := s.threads) (t := s.cur) (ctx_thread_iff.1 hctx).2
      rw [ht]
      simp only [State.withLock, State.takeBack, State.releaseLock, State.takeLock, State.setThread, hu]
      rw [hths]
    have hlock (c : Cell) : run (unlockStep (.done v)) c ((g (s.takeLock s.cur)).takeBack s.self)
        = .next (({ g s with lockHolder := none } : State).finish c.word v) := by
      have hs' : ((g (s.takeLock s.cur)).takeBack s.self).sched = [] := by rw [ht]; exact hsched
      have hc' : ((g (s.takeLock s.cur)).takeBack s.self).cur = s.cur := by rw [ht]; exact hcur
      rw [run_unlockStep hs', run_done, hc', hgt]
      rfl
    obtain ⟨c', hcw, hE⟩ := hr (fun v => unlockStep (.done v)) (s.takeLock s.cur)
      (fun c out => out = .next (({ g s with lockHolder := none } : State).finish c.word v)) sameButLock_takeLock
      (fun c => ⟨c, rfl, hlock c⟩) ⟨encode i, o, 3, [0, 0, 0], none⟩
    rw [Completes, he, command_schedLocked_api hi hw hctx hl, hE, hcw]
    rfl
  | locked =>
    obtain ⟨c', hcw, hE⟩ := hr .done s (Returned ((g s).takeBack s.self) v) sameButLock_refl done_returns
      ⟨encode i, o, 2, [0, 0], none⟩
    rw [Completes, he, command_schedLocked_locked hi hw hm, hE, hcw]
    rfl

end Sys2Proof.Machine
end

section
/-! PROOFS. O30: the global getters (R204, R260, R262, R264, R266, R425). Each is one register read and a return. -/

namespace Sys2Proof.Machine

variable {s : State} {i : Instr} {o : Operands} {c : Form}

/-- A command that reads one register and answers `g` of what it read leaves the read's state (R107, R425). -/
theorem completes_read {r : Reg} {g : Word → ResultVal} (hc : i.cls = some (.intSafe c))
    (hcore : i.coreOf s.par.useWait o = fun ret => rd r fun v => ret (g v)) (hm : s.MayRunI c) (hi : s.Issued i o) :
    Completes i s (s.afterRead r) (g (s.regRead r)) := by
  have hd : (i.coreOf s.par.useWait o).Does (fun _ => True) (·.afterRead r) (fun s => g (s.regRead r)) := by
    rw [hcore]
    exact fun ret c s h _ => ⟨_, Cell.push_word c _, run_rd h⟩
  have hs : ((s.takeLock s.cur).afterRead r).sched = [] := by simpa using hi.1
  rw [Completes, exec_eq_command s hc]
  refine command_intSafe_does (f := (·.afterRead r)) (v := fun s => g (s.regRead r)) hi hm (wellFormed_of_form _ (.inl hc)) hd
    trivial trivial hs ?_ ?_
  · cases r <;> rfl
  · cases r <;> rfl

/-- The high half of a word, as a field and as a shift (R11, R266). -/
theorem field_high (p : Word) : field p 16 16 = p >>> 16 := by
  have hm : Config.mask 16 = 0xFFFF#32 := by decide
  have hp := p.isLt
  rw [field, hm]
  apply BitVec.eq_of_toNat_eq
  rw [BitVec.toNat_and, BitVec.toNat_ushiftRight, Nat.shiftRight_eq_div_pow]
  exact Nat.and_two_pow_sub_one_of_lt_two_pow (n := 16) (by omega)

/-- The low half of a word, as a field and as a mask (R11, R266). -/
theorem field_low (p : Word) : field p 0 16 = p &&& 0xFFFF#32 := by
  have hm : Config.mask 16 = 0xFFFF#32 := by decide
  rw [field, hm, BitVec.ushiftRight_zero]

/-- Settles O30: each getter is a read of its register. -/
theorem globalGettersComplete : Obligations.GlobalGettersComplete := by
  intro c o s hm
  refine ⟨fun hi => ?_, fun hi => ?_, fun hi => ?_, fun hi => ?_, fun hi => ?_⟩
  · exact completes_read (r := .srcr) rfl rfl hm hi
  · exact completes_read (r := .gcr) rfl rfl hm hi
  · exact completes_read (r := .bccr) rfl rfl hm hi
  · rw [← vbitsMask_eq]
    exact completes_read (r := .lipcr) rfl rfl hm hi
  · rw [← field_high, ← field_low]
    exact completes_read (r := .cpsr) rfl rfl hm hi

end Sys2Proof.Machine
end

section
/-! PROOFS. O48: the two mutexes (R210, R211, R385, R386, R515). They differ in the state they check and the owner they write;
each command is a check, then a hold or a check of the owner, then one write. -/

namespace Sys2Proof.Machine

variable {s : State} {i : Instr} {o : Operands} {p q : State → Bool} {f : State → State} {w : Wait}

/-- The class `api` commands that run in this build from this context (R146 f, R154, R455). -/
structure State.RunsApi (s : State) (i : Instr) (o : Operands) : Prop where
  cls : i.cls = some .api
  present : i.wellFormed true s.par.useMutex = true
  context : s.Passes (s.ctx == .thread)
  issued : s.Issued i o

theorem State.RunsApi.exec_eq (h : s.RunsApi i o) :
    exec i s = run (i.coreOf s.par.useWait o .done) ⟨encode i, o, 2, [0, 0], none⟩ s :=
  exec_api h.cls h.present h.context h.issued

theorem State.RunsApi.reachesCore (h : s.RunsApi i o) : ReachesCore i o s :=
  reachesCore_api h.cls h.present h.context h.issued

theorem isNone_eq_false_of_ne_none {α : Type} {a : Option α} (h : a ≠ none) : a.isNone = false := by
  rwa [Option.isNone_eq_false_iff, Option.isSome_iff_ne_none]

/-- A free mutex is taken (R210, R385). -/
theorem acquire_completes (h : s.RunsApi i o)
    (hcore : i.coreOf s.par.useWait o = fun ret => check p .state <| holdUntil q w f <| ret .unit) (hp : s.Passes (p s))
    (hq : q s = true) : Completes i s (f s) .unit := by
  rw [Completes, h.exec_eq, hcore, run_check_pass h.issued.1 hp, run_holdUntil_free h.issued.1 hq]
  rfl

/-- An owned mutex holds the agent at micro-step 3 (R18, R210, R385, R515; log 3). -/
theorem acquire_holds (h : s.RunsApi i o)
    (hcore : i.coreOf s.par.useWait o = fun ret => check p .state <| holdUntil q w f <| ret .unit) (hp : s.Passes (p s))
    (hq : q s = false) : exec i s = .next (s.suspend ⟨encode i, o, 3, [0, 0, 0], some w⟩) := by
  rw [h.exec_eq, hcore, run_check_pass h.issued.1 hp, run_holdUntil_held h.issued.1 hq]
  rfl

/-- The owner frees the mutex, without checks anyone (R211, R386). -/
theorem release_completes (h : s.RunsApi i o)
    (hcore : i.coreOf s.par.useWait o = fun ret => check p .state <| check q .notOwner <| act f <| ret .unit)
    (hp : s.Passes (p s)) (hq : s.Passes (q s)) : Completes i s (f s) .unit := by
  rw [Completes, h.exec_eq, hcore, run_check_pass h.issued.1 hp, run_check_pass h.issued.1 hq, run_act h.issued.1]
  rfl

/-- Another agent's release faults (R211, R386). -/
theorem release_notOwner (h : s.RunsApi i o)
    (hcore : i.coreOf s.par.useWait o = fun ret => check p .state <| check q .notOwner <| act f <| ret .unit)
    (hc : s.par.checks = true) (hp : ∀ ths lk, s.Passes (p (s.withLock ths lk)))
    (hq : ∀ ths lk, q (s.withLock ths lk) = false) : FaultsAtOnce i s .notOwner none := by
  refine h.reachesCore.faultsAtOnce ?_
  rintro ret _ ⟨ths, lk, rfl⟩
  rw [hcore]
  exact ends_check h.issued.1 (hp ths lk) <| check_raises h.issued.1 hc (hq ths lk)

/-- The mutex commands are there in a build with the mutex, and the panel's in every build (R146 f). -/
theorem wellFormed_of_present {i : Instr} {b : Bool} (hc : i.cls = some .api) (hp : b = true ∨ i.isPanel = true) :
    i.wellFormed true b = true := by
  rcases hp with rfl | hp
  · exact wellFormed_of_presentIn hc rfl
  · exact wellFormed_of_cls _ hc (by rintro rfl; exact absurd hp (by decide)) (by rintro rfl; exact absurd hp (by decide))

/-- Settles O48: the four rules above, at each of the two mutexes. -/
theorem mutexCommands : Obligations.MutexCommands := by
  refine ⟨fun o s hx hm hp => ?_, fun o s hx hp => ?_⟩
  · have runs {i : Instr} (hc : i.cls = some .api) (hi : s.Issued i o) : s.RunsApi i o :=
      ⟨hc, wellFormed_of_present hc (.inl hm), hx, hi⟩
    refine ⟨fun hi hf => ?_, fun hi hf => ?_, fun hi hown => ?_, fun hi hc hown => ?_⟩
    · exact acquire_completes (runs rfl hi) rfl hp (Option.isNone_iff_eq_none.2 hf)
    · exact acquire_holds (runs rfl hi) rfl hp (isNone_eq_false_of_ne_none hf)
    · exact release_completes (runs rfl hi) rfl hp hown
    · exact release_notOwner (runs rfl hi) rfl hc (fun _ _ => hp) fun _ _ => beq_eq_false_iff_ne.2 hown
  · have runs {i : Instr} (hc : i.cls = some .api) (hpnl : i.isPanel = true) (hi : s.Issued i o) : s.RunsApi i o :=
      ⟨hc, wellFormed_of_present hc (.inr hpnl), hx, hi⟩
    refine ⟨fun hi hf => ?_, fun hi hf => ?_, fun hi hown => ?_, fun hi hc hown => ?_⟩
    · exact acquire_completes (runs rfl rfl hi) rfl hp (Option.isNone_iff_eq_none.2 hf)
    · exact acquire_holds (runs rfl rfl hi) rfl hp (isNone_eq_false_of_ne_none hf)
    · exact release_completes (runs rfl rfl hi) rfl hp hown
    · exact release_notOwner (runs rfl rfl hi) rfl hc (fun _ _ => hp) fun _ _ => beq_eq_false_iff_ne.2 hown

end Sys2Proof.Machine
end

section
/-! PROOFS. O52: commands in the wrong state (R200 to R206, R210 to R212, R382 to R395, R526). Every one fails the first check of
its core, but a RELOAD_WAIT in the wrong state its second. -/

namespace Sys2Proof.Machine

variable {s : State} {i : Instr} {o : Operands} {code : FaultCode} {g : State → Bool} {c : Form}

/-- A command whose core begins with a check that fails, whoever holds the lock, faults at once (R17, R453). -/
theorem ReachesCore.faultsAtFirstCheck (h : ReachesCore i o s) (his : s.Issued i o) (hc : s.par.checks = true)
    (hcore : ∀ ret, ∃ k, i.coreOf s.par.useWait o ret = check g code k)
    (hg : ∀ ths lk, g (s.withLock ths lk) = false) : FaultsAtOnce i s code none := by
  refine h.faultsAtOnce ?_
  rintro ret _ ⟨ths, lk, rfl⟩
  obtain ⟨k, hk⟩ := hcore ret
  exact hk ▸ check_raises his.1 hc (hg ths lk)

theorem reloadWait_wrongState (hc : s.par.checks = true) (hm : s.MayRunS c) (his : s.Issued (.reloadWait c) o)
    (hw : s.waiter = none) (hd : s.drvState ≠ .ready) : FaultsAtOnce (.reloadWait c) s .state none := by
  refine (reachesCore_schedLocked rfl hm his).faultsAtOnce ?_
  rintro ret _ ⟨ths, lk, rfl⟩
  exact ends_check his.1 (.inr (by simpa using hw)) <| check_raises his.1 hc (by simpa using hd)

/-- Settles O52: each command by its first check. -/
theorem wrongStateFaults : Obligations.WrongStateFaults := by
  refine ⟨fun c o s hk => ⟨fun hi hd => ?_, fun hm hi hd => ?_, fun hm hi hd => ?_, fun hm hi hd => ?_, fun hm hi hw => ?_,
    fun hm hi => reloadWait_wrongState hk hm hi, fun hx hm hi hd => ?_, fun hx hm hi hd => ?_⟩,
    fun i o s hk hi => ⟨?_, fun hx => ⟨?_, ?_, ?_, ?_⟩⟩⟩
  · exact (reachesCore_anyContext (.inl rfl) hi).faultsAtFirstCheck hi hk (fun _ => ⟨_, rfl⟩) fun _ _ => by simpa using hd
  · exact (reachesCore_schedLocked rfl hm hi).faultsAtFirstCheck hi hk (fun _ => ⟨_, rfl⟩) fun _ _ => by simpa using hd
  · exact (reachesCore_schedLocked rfl hm hi).faultsAtFirstCheck hi hk (fun _ => ⟨_, rfl⟩) fun _ _ => by simpa using hd
  · exact (reachesCore_intSafe rfl hm hi).faultsAtFirstCheck hi hk (fun _ => ⟨_, rfl⟩) fun _ _ => by simpa using hd
  · exact (reachesCore_schedLocked rfl hm hi).faultsAtFirstCheck hi hk (fun _ => ⟨_, rfl⟩) fun _ _ => isNone_eq_false_of_ne_none hw
  · exact (reachesCore_api rfl (by rw [hm]; rfl) (.inr (by simp [hx])) hi).faultsAtFirstCheck hi hk (fun _ => ⟨_, rfl⟩)
      fun _ _ => by simpa using hd
  · exact (reachesCore_api rfl (by rw [hm]; rfl) (.inr (by simp [hx])) hi).faultsAtFirstCheck hi hk (fun _ => ⟨_, rfl⟩)
      fun _ _ => by simpa using hd
  · rintro rfl hp
    exact (reachesCore_anyContext (.inl rfl) hi).faultsAtFirstCheck hi hk (fun _ => ⟨_, rfl⟩) fun _ _ => by simpa using hp
  all_goals have hx' : s.Passes (s.ctx == .thread) := .inr (beq_iff_eq.2 hx)
  · rintro rfl hp
    exact (reachesCore_panel rfl rfl hx' hi).faultsAtFirstCheck hi hk (fun _ => ⟨_, rfl⟩) fun _ _ => by simpa using hp
  · rintro (rfl | rfl) hp <;>
      exact (reachesCore_panel rfl rfl hx' hi).faultsAtFirstCheck hi hk (fun _ => ⟨_, rfl⟩) fun _ _ => by simpa using hp
  · rintro (rfl | rfl) hp <;>
      exact (reachesCore_panel rfl rfl hx' hi).faultsAtFirstCheck hi hk (fun _ => ⟨_, rfl⟩) fun _ _ => by simpa using hp
  · rintro (rfl | rfl | rfl | rfl | rfl | rfl) hp <;>
      exact (reachesCore_panel rfl rfl hx' hi).faultsAtFirstCheck hi hk (fun _ => ⟨_, rfl⟩) fun _ _ => by simpa using hp

end Sys2Proof.Machine
end

section
/-! PROOFS. O43 and O45: STOP and the polled RELOAD_WAIT (R201, R203, R206). Both request a reload and poll it; with nothing else
scheduled the commit comes at the yield (log 2), and the agent goes on with the lock it took back. -/

namespace Sys2Proof.Machine

variable {s : State} {E : Cell → Out → Prop} {k : Prog} {o : Operands} {c : Form}

-- ==== an immediate reload ====

/-- A bit that has just been set is set. -/
theorem hasBits_or_self {x m : Word} (hm : m ≠ 0) : hasBits (x ||| m) m = true := by
  have h : (x ||| m) &&& m = m := by ext j hj; simpa using Or.inr
  rw [hasBits, h, bne_iff_ne]
  exact hm

/-- The internal commit is an immediate reload, the lock taken back (R201). -/
theorem internalCommit_ends (h : s.sched = []) (hk : k.Ends (s.immediateReload.takeBack s.self) E) :
    (internalCommit k).Ends s E := by
  have hb : hasBits (s.regWrite .srcr srcrImr).srcr srcrImr = true := hasBits_or_self (m := 1) (by decide)
  exact ends_wr h <| ends_pollCommit h hb (Bool.or_eq_true_iff.2 (.inl hb)) hk

-- ==== the controller off ====

/-- GCR when LTDCEN is cleared (R45, R202, R203). -/
theorem gcr_off (g : Word) :
    (g &&& 0x7770#32) ||| ((g &&& ~~~gcrLtdcen) &&& 0xF0010001#32) = g &&& 0xF0017770#32 := by
  have hm : (0x7770#32 ||| (~~~gcrLtdcen &&& 0xF0010001#32)) = 0xF0017770#32 := by decide
  rw [BitVec.and_assoc, ← BitVec.and_or_distrib_left, hm]

/-- The controller and its interrupt sources off, and an immediate reload (R202, R203). -/
def State.turnedOff (s : State) : State :=
  ({ s with ier := 0, shadow := { s.shadow with gcr := s.shadow.gcr &&& 0xF0017770#32 } } : State).immediateReload

/-- START and STOP turn the controller off in the same four steps (R202, R203). -/
theorem turnOff_ends (h : s.sched = []) (hk : k.Ends (s.turnedOff.takeBack s.self) E) :
    (rd .gcr fun g => wr .gcr (g &&& ~~~gcrLtdcen) <| wr .ier 0 <| internalCommit k).Ends s E := by
  have hwr : (s.regWrite .gcr (s.shadow.gcr &&& ~~~gcrLtdcen)).regWrite .ier 0
      = { s with ier := 0, shadow := { s.shadow with gcr := s.shadow.gcr &&& 0xF0017770#32 } } := by
    rw [regWrite_gcr, regWrite_ier, gcr_off]
    rfl
  refine ends_rdReg nofun h <| ends_wr h <| ends_wr (by simpa using h) ?_
  show (internalCommit k).Ends ((s.regWrite .gcr (s.shadow.gcr &&& ~~~gcrLtdcen)).regWrite .ier 0) E
  rw [hwr]
  exact internalCommit_ends h hk

/-- Settles O43: the check, the controller off, STOP. -/
theorem stopCompletes : Obligations.StopCompletes := by
  intro c o s hm hi hd
  refine completes_schedLocked (g := fun s => { s.turnedOff with drvState := .stop }) rfl hm hi ?_ (fun _ _ => rfl) rfl hi.1
  rintro ret _ E ⟨ths, lk, rfl⟩ hk
  exact ends_check hi.1 hd <| turnOff_ends hi.1 <| ends_act hi.1 hk

-- ==== the polled wait ====

/-- The polled wait of request bit `b`, with a commit due once it is requested, ends in READY (R206). -/
theorem polledWait_ends {b : Word} {ret : ResultVal → Prog} (h : s.sched = []) (hb : b ≠ 0) (hb3 : b &&& 0x3 = b)
    (hc : ({ s with srcr := s.srcr ||| b } : State).commitEnabled = true)
    (hk : (ret (.msg .ok)).Ends
      ({ ({ s with srcr := s.srcr ||| b } : State).commit with drvState := .ready }.takeBack s.self) E) :
    (polledWait b ret).Ends s E := by
  refine ends_wr h ?_
  rw [regWrite_srcr, hb3]
  exact ends_pollCommit h (hasBits_or_self hb) hc <| ends_act h hk

theorem requestBit_eq (x : Word) : requestBit x = if x = 0 then 0x2 else 0x1 := by
  by_cases hx : x = 0 <;> simp [requestBit, isTrue, hx, srcrImr, srcrVbr]

/-- An immediate reload is due at once, a deferred one while the controller is on (R421). -/
theorem commitEnabled_requested {x : Word} (hx : x ≠ 0 ∨ s.rasterOn = true) :
    ({ s with srcr := s.srcr ||| requestBit x } : State).commitEnabled = true := by
  rw [State.commitEnabled, requestBit_eq, Bool.or_eq_true_iff]
  by_cases h0 : x = 0
  · rw [if_pos h0]
    exact .inr (Bool.and_eq_true_iff.2 ⟨hasBits_or_self (m := 2) (by decide), hx.resolve_left (not_not_intro h0)⟩)
  · rw [if_neg h0]
    exact .inl (hasBits_or_self (m := 1) (by decide))

/-- The core of RELOAD_WAIT polls for an immediate request, and in a build without the wait slot for any (R206). -/
theorem reloadWaitCore_polls {useWait : Bool} {x : Word} {ret : ResultVal → Prog} (hx : useWait = false ∨ x ≠ 0)
    (h : s.sched = []) (hw : s.Passes s.waiter.isNone) (hd : s.Passes (s.drvState == .ready))
    (hp : ∀ ret', (∀ v E s, (ret v).Ends s E → (ret' v).Ends s E) →
      (polledWait (requestBit x) ret').Ends { s with drvState := .active } E) :
    (reloadWaitCore useWait x ret).Ends s E := by
  refine ends_check h hw <| ends_check h hd <| ends_act h ?_
  cases useWait with
  | false => exact hp ret fun _ _ _ hk => hk
  | true =>
    have hx' : isTrue x = true := bne_iff_ne.2 (hx.resolve_left nofun)
    have hb : requestBit x = srcrImr := by rw [requestBit, if_pos hx']
    rw [if_pos rfl, if_pos hx', ← hb]
    exact hp _ fun _ _ _ hk => ends_jump hk

/-- Settles O45: the checks, ACTIVE, and the polled wait. -/
theorem polledReloadWaitCompletes : Obligations.PolledReloadWaitCompletes := by
  intro c o s hm hi hw hd hx
  have hpoll : s.par.useWait = false ∨ o.x ≠ 0 := hx.symm.imp_left And.left
  have hon : o.x ≠ 0 ∨ s.rasterOn = true := hx.imp_right And.right
  rw [← requestBit_eq]
  have hb : requestBit o.x ≠ 0 ∧ requestBit o.x &&& 0x3 = requestBit o.x := by
    rw [requestBit_eq]
    split <;> decide
  refine completes_schedLocked (g := fun s => { ({ s with srcr := s.srcr ||| requestBit o.x } : State).commit with
    drvState := .ready }) rfl hm hi ?_ (fun _ _ => rfl) rfl hi.1
  rintro ret _ E ⟨ths, lk, rfl⟩ hk
  exact reloadWaitCore_polls hpoll hi.1 hw hd fun ret' hret =>
    polledWait_ends hi.1 hb.1 hb.2 (commitEnabled_requested (s := { s with drvState := .active }) hon) (hret _ _ _ hk)

end Sys2Proof.Machine
end

section
/-! PROOFS. Undisturbed runs of the palette loader and of a whole-layer write to their end (R64, R65, R306, R336). -/

namespace Sys2Proof.Machine

variable {s : State} {E : Cell → Out → Prop} {k : Prog} {l : Layer} {p : Word}

/-- One entry of a palette loaded from `p` (R306): word `j`'s colour in slot `j mod 256`. -/
def loadEntry (m : Mem) (p : Word) (v : Vector Rgb Config.clutLen) (j : Nat) : Vector Rgb Config.clutLen :=
  v.setIfInBounds (j % 256) ((m.readLe (p + BitVec.ofNat 32 (4 * j)) 4).truncate 24)

theorem loadedPalette_eq (m : Mem) (n : Nat) (old : Vector Rgb Config.clutLen) :
    loadedPalette m p n old = (List.range' 0 n).foldl (loadEntry m p) old := by
  rw [← List.range_eq_range']
  rfl

/-- The slot of a packed palette word is its index modulo 256 (R64, R149). -/
theorem clutSlot_packClut (j : Nat) (e : Word) : clutSlot (packClut (BitVec.ofNat 32 j) e) = j % 256 := by
  have hm : Config.mask 8 = 0xFF#32 := by decide
  have hh : (BitVec.ofNat 32 j &&& 0xFF#32).toNat = j % 256 := by
    rw [BitVec.toNat_and, BitVec.toNat_ofNat]
    exact (Nat.and_two_pow_sub_one_eq_mod (n := 8) _).trans (by omega)
  have hl : (e &&& 0x00FFFFFF#32).toNat < 2 ^ 24 := by
    rw [BitVec.toNat_and]
    exact Nat.lt_of_le_of_lt Nat.and_le_right (by decide)
  have hv : (packClut (BitVec.ofNat 32 j) e).toNat = (j % 256) <<< 24 ||| (e &&& 0x00FFFFFF#32).toNat := by
    rw [packClut, trunc, hm, BitVec.toNat_or, BitVec.toNat_shiftLeft, hh, Nat.mod_eq_of_lt (by rw [Nat.shiftLeft_eq]; omega)]
  rw [clutSlot_eq, BitVec.toNat_ushiftRight, hv, ← Nat.shiftLeft_add_eq_or_of_lt hl, Nat.shiftLeft_eq,
    Nat.shiftRight_eq_div_pow]
  omega

theorem clutColour_packClut (i e : Word) : clutColour (packClut i e) = e.truncate 24 := by
  have hm : (0x00FFFFFF#32).setWidth 24 = BitVec.allOnes 24 := by decide
  rw [clutColour_eq, packClut, BitVec.truncate_eq_setWidth, BitVec.setWidth_or, BitVec.setWidth_and, hm, BitVec.and_allOnes,
    BitVec.setWidth_shiftLeft_of_le (by decide), BitVec.shiftLeft_eq_zero (by decide), BitVec.zero_or]
/-- Writing one word of a palette (R64, R306). -/
theorem regWrite_paletteEntry (m : Mem) (j : Nat) :
    s.regWrite (.lay l .clutwr) (packClut (BitVec.ofNat 32 j) (m.readLe (p + BitVec.ofNat 32 (4 * j)) 4))
      = s.putPalette l (loadEntry m p (s.clutShadow.layer l) j) := by
  rw [regWrite_clutwr, State.writeClut, clutSlot_packClut, clutColour_packClut]
  rfl

@[simp] theorem Clut.setLayer_setLayer (c : Clut) (v w : Vector Rgb Config.clutLen) :
    (c.setLayer l v).setLayer l w = c.setLayer l w := by cases l <;> rfl

@[simp] theorem Clut.setLayer_layer (c : Clut) : c.setLayer l (c.layer l) = c := by cases l <;> rfl

/-- The loader's loop writes the words from `p` in index order (R306). -/
theorem paletteLoop_ends (n j : Nat) (h : s.sched = []) (hp : n = 0 ∨ (p ≠ 0 ∧ aligned4 p = true))
    (hk : k.Ends (s.putPalette l ((List.range' j n).foldl (loadEntry s.mem p) (s.clutShadow.layer l))) E) :
    (paletteLoop l p n j k).Ends s E := by
  induction n generalizing s j with
  | zero =>
    have hs : s.putPalette l (s.clutShadow.layer l) = s := by rw [State.putPalette, Clut.setLayer_layer]
    exact ends_jump (hs ▸ hk)
  | succ n ih =>
    obtain ⟨h0, ha⟩ := hp.resolve_left nofun
    refine ends_crashCheck h (bne_iff_ne.2 h0) <| ends_memRd h ha <| ends_wr h <| ends_jump ?_
    rw [regWrite_paletteEntry]
    refine ih (j + 1) h (.inr ⟨h0, ha⟩) ?_
    simpa [State.putPalette, List.range'_succ] using hk

/-- The palette loader, its checks passed, writes its words (R306). -/
theorem applyPalette_loads {n : Word} (h : s.sched = []) (hr : s.Passes ((s.lay l).cr &&& 1 == 0))
    (hn : s.Passes (decide (n ≤ 256))) (hp : n = 0 ∨ (p ≠ 0 ∧ aligned4 p = true))
    (hk : k.Ends (s.putPalette l (loadedPalette s.mem p n.toNat (s.clutShadow.layer l))) E) :
    (applyPalette l p n k).Ends s E := by
  rw [loadedPalette_eq] at hk
  refine applyPalette_ends h hr hn (.inr ?_) <| paletteLoop_ends _ _ h (hp.imp_left fun e => by rw [e]; rfl) hk
  rcases hp with rfl | hp
  · rw [beq_self_eq_true, Bool.or_true]
  · rw [bne_iff_ne.2 hp.1, Bool.true_or]

/-- The optional palette of a whole-layer write (R336). -/
theorem optPalette_ends {d : LayerSpecD} (h : s.sched = []) (hp : d.palLen = 0 ∨ aligned4 d.palPtr = true)
    (hok : s.Passes (d.palPtr == 0 || ((s.lay l).cr &&& 1 == 0 && decide (d.palLen ≤ 256))))
    (hk : k.Ends (s.putSpecPalette l d) E) : (optPalette l d.palPtr d.palLen k).Ends s E := by
  unfold optPalette
  unfold State.putSpecPalette at hk
  by_cases h0 : d.palPtr = 0
  · rw [if_pos h0] at hk
    rw [if_neg (not_not_intro h0)]
    exact ends_jump hk
  · rw [if_neg h0] at hk
    rw [if_pos h0]
    rw [beq_eq_false_iff_ne.2 h0, Bool.false_or, passes_and] at hok
    exact applyPalette_loads h hok.1 hok.2 (hp.imp_right fun ha => ⟨h0, ha⟩) hk

/-- The registers before the palette, then the palette and LxCR, are the whole write (R336). -/
theorem putSpec_of_beforePalette (d : LayerSpecD) :
    ((s.beforePalette l d).putSpecPalette l d).regWrite (.lay l .cr) (d.flags &&& layerFlagMask) = s.putSpec l d := by
  rw [regWrite_cr, State.putSpec]
  unfold State.putSpecPalette
  split <;>
    simp [State.beforePalette, State.putLayer, State.putPalette, State.lay, LayerRegs.withSpec, layerFlagMask, BitVec.and_assoc]

/-- A whole-layer write of a specification that can be read, its checks passed (R336). -/
theorem setLayerTo_writes (h : s.sched = []) (hp : specReadable s.mem p = true) (hn : s.cfg ≠ 0) (ha : aligned4 s.cfg = true)
    (hok : s.Passes (specOk (s.mem.readLe s.cfg 2) (s.mem.readLe (s.cfg + 2) 2) s.activeWindow (s.lay l).cr (specAt s.mem p)))
    (hk : k.Ends (s.putSpec l (specAt s.mem p)) E) : (setLayerTo l p k).Ends s E := by
  obtain ⟨hrec, hpal⟩ : recordReadable p = true
      ∧ ((specAt s.mem p).palLen = 0 ∨ aligned4 (specAt s.mem p).palPtr = true) := by
    simpa [specReadable] using hp
  rw [specOk, passes_and, passes_and] at hok
  obtain ⟨⟨hf, hw⟩, hpok⟩ := hok
  have hs : ((s.beforePalette l (specAt s.mem p)).putSpecPalette l (specAt s.mem p)).sched = [] := by
    unfold State.putSpecPalette
    split <;> exact h
  exact setLayerTo_ends h hrec <| applySpec_ends h hn ha hf hw <| optPalette_ends h hpal (by rwa [lay_beforePalette_cr]) <|
    ends_wr hs (putSpec_of_beforePalette _ ▸ hk)

end Sys2Proof.Machine
end

section
/-! PROOFS. O42: START (R201, R202, R208, R209). The run in three parts: the configuration taken and the controller off; the
timings, the flags and the clear colour; the layers, the sources and the controller on. -/

namespace Sys2Proof.Machine

variable {s : State} {E : Cell → Out → Prop} {k : Prog} {o : Operands} {f : Form} {p : Word} {c : ConfigD} {l : Layer}

-- ==== the configuration ====

theorem readConfig_ends {k : ConfigD → Prog} (h : s.sched = []) (ha : aligned4 p = true) (hp : p ≠ 0)
    (hk : (k (configAt s.mem p)).Ends s E) : (readConfig p k).Ends s E := by
  have h0 : p + BitVec.ofNat 32 0 = p := by simp
  refine ends_crashCheck h (bne_iff_ne.2 hp) <| ends_memRd h ha <| ends_memRd h ha <| ends_memRd h ha <| ends_memRd h ha <|
    ends_memRd h ha <| ends_memRd h ha <| ends_memRd h ha <| ends_memRd h ha <| ends_memRd h ha <| ends_memRd h ha <|
    ends_memRd h ha <| ends_memRd h ha <| ends_memRd h ha <| ends_memRd h ha <| ends_memRd h ha <| ends_memRd h ha ?_
  rw [h0]
  exact hk

/-- What START does once the timings are programmed (R202). -/
def startLayers (c : ConfigD) (k : Prog) : Prog :=
  rd .gcr fun g =>
  wr .gcr ((g &&& ~~~gcrCfgMask) ||| (c.flags &&& gcrCfgMask)) <|
  wr .bccr (rgb24 c.clearColor) <|
  setLayerTo .l1 c.bgSpec <|
  setLayerTo .l2 c.fgSpec <|
  startTail c k

/-- START comes to its timings with the configuration held and the controller off (R202). -/
theorem startCore_ends {ret : ResultVal → Prog} (h : s.sched = []) (hd : s.Passes (s.drvState == .stop)) (hp : p ≠ 0)
    (ha : aligned4 p = true)
    (hk : (programTimings (configAt s.mem p) <| startLayers (configAt s.mem p) (ret .unit)).Ends
      (({ s with cfg := p } : State).turnedOff.takeBack s.self) E) : (startCore p ret).Ends s E :=
  ends_check h hd <| ends_checkB h (.inr (bne_iff_ne.2 hp)) <| readConfig_ends h ha hp <| ends_act h <|
    turnOff_ends (s := { s with cfg := p }) h hk

-- ==== the timings ====

theorem packHv_and_mask (x y : Word) : packHv x y &&& 0x0FFF07FF#32 = packHv x y :=
  packed_and_mask x y _ _ _ (by decide) (by decide)

/-- The timings of `c` programmed: four registers and the active window (R208). -/
def State.programmed (s : State) (c : ConfigD) : State :=
  let ah := c.hsyncWidth - 1 + c.hbpWidth
  let av := c.vsyncHeight - 1 + c.vbpHeight
  { s with
    shadow :=
      { s.shadow with
        sscr := packHv (c.hsyncWidth - 1) (c.vsyncHeight - 1)
        bpcr := packHv ah av
        awcr := packHv (ah + c.screenWidth) (av + c.screenHeight)
        twcr := packHv (ah + c.screenWidth + c.hfpWidth) (av + c.screenHeight + c.vfpHeight) }
    activeWindow :=
      ⟨(ah + 1).truncate 16, (ah + c.screenWidth).truncate 16, (av + 1).truncate 16, (av + c.screenHeight).truncate 16⟩ }

theorem programTimings_ends (h : s.sched = []) (hc : s.Passes (timingsOk c)) (hk : k.Ends (s.programmed c) E) :
    (programTimings c k).Ends s E := by
  simp only [timingsOk, passes_and] at hc
  obtain ⟨⟨⟨⟨⟨⟨⟨⟨⟨⟨⟨⟨⟨hhs, hvs⟩, hhb⟩, hvb⟩, hahb⟩, havb⟩, hsw⟩, hsh⟩, hahs⟩, havs⟩, hhf⟩, hvf⟩, hahf⟩, havf⟩ := hc
  refine ends_checkB h hhs <| ends_checkB h hvs <| ends_wr h <| ends_checkB h hhb <| ends_checkB h hvb <|
    ends_checkB h hahb <| ends_checkB h havb <| ends_wr h <| ends_checkB h hsw <| ends_checkB h hsh <| ends_checkB h hahs <|
    ends_checkB h havs <| ends_wr h <| ends_checkB h hhf <| ends_checkB h hvf <| ends_checkB h hahf <| ends_checkB h havf <|
    ends_wr h <| ends_act h ?_
  simp only [regWrite_sscr, regWrite_bpcr, regWrite_awcr, regWrite_twcr, packHv_and_mask]
  exact hk

-- ==== the flags and the clear colour ====

/-- GCR when the configuration's flags are written (R45, R202). -/
theorem gcr_flags (g flags : Word) :
    (g &&& 0x7770#32) ||| (((g &&& ~~~gcrCfgMask) ||| (flags &&& gcrCfgMask)) &&& 0xF0010001#32) = gcrWithFlags g flags := by
  have h1 : (0x7770#32 ||| (~~~gcrCfgMask &&& 0xF0010001#32)) = 0x7771#32 := by decide
  have h2 : gcrCfgMask &&& 0xF0010001#32 = 0xF0010000#32 := by decide
  rw [gcrWithFlags, BitVec.and_or_distrib_right, BitVec.and_assoc, BitVec.and_assoc, h2, ← BitVec.or_assoc,
    ← BitVec.and_or_distrib_left, h1]

/-- START comes to its first layer with everything before it programmed (R202, R208). -/
theorem startLayers_ends (h : s.sched = [])
    (hk : (setLayerTo .l1 c.bgSpec <| setLayerTo .l2 c.fgSpec <| startTail c k).Ends
      { s with shadow :=
        { s.shadow with gcr := gcrWithFlags s.shadow.gcr c.flags, bccr := c.clearColor &&& 0x00FFFFFF#32 } } E) :
    (startLayers c k).Ends s E := by
  refine ends_rdReg nofun h <| ends_wr h <| ends_wr h ?_
  simp only [regWrite_gcr, regWrite_bccr, State.regRead, gcr_flags, rgb24, BitVec.and_assoc, BitVec.and_self]
  exact hk

/-- START comes to its first layer in the state `timed` says (R202, R208). -/
theorem startCore_timed {ret : ResultVal → Prog} (h : s.sched = []) (hd : s.Passes (s.drvState == .stop)) (hp : p ≠ 0)
    (ha : aligned4 p = true) (hc : c = configAt s.mem p) (ht : s.Passes (timingsOk c))
    (hk : (setLayerTo .l1 c.bgSpec <| setLayerTo .l2 c.fgSpec <| startTail c (ret .unit)).Ends
      ((s.timed p c).takeBack s.self) E) : (startCore p ret).Ends s E := by
  subst hc
  exact startCore_ends h hd hp ha <| programTimings_ends h ht <| startLayers_ends h hk

-- ==== the sources and the controller on ====

/-- GCR when LTDCEN is set, none of its reserved bits being so (R45, R202). -/
theorem gcr_on {g : Word} (hg : g &&& 0xF0017771#32 = g) :
    (g &&& 0x7770#32) ||| ((g ||| gcrLtdcen) &&& 0xF0010001#32) = g ||| 1 := by
  have h1 : gcrLtdcen &&& 0xF0010001#32 = 1 := by decide
  have h2 : (0x7770#32 ||| 0xF0010001#32) = 0xF0017771#32 := by decide
  rw [BitVec.and_or_distrib_right, h1, ← BitVec.or_assoc, ← BitVec.and_or_distrib_left, h2, hg]

/-- The controller on, and an immediate reload (R202). -/
def State.turnedOn (s : State) : State :=
  ({ s with shadow := { s.shadow with gcr := s.shadow.gcr ||| 1 } } : State).immediateReload

/-- START turns the controller on (R202). -/
theorem turnOn_ends (h : s.sched = []) (hg : s.shadow.gcr &&& 0xF0017771#32 = s.shadow.gcr)
    (hk : k.Ends (s.turnedOn.takeBack s.self) E) :
    (rd .gcr fun g => wr .gcr (g ||| gcrLtdcen) <| internalCommit k).Ends s E := by
  refine ends_rdReg nofun h <| ends_wr h ?_
  show (internalCommit k).Ends (s.regWrite .gcr (s.shadow.gcr ||| gcrLtdcen)) E
  rw [regWrite_gcr, gcr_on hg]
  exact internalCommit_ends h hk

theorem gcrWithFlags_clean (g flags : Word) : gcrWithFlags g flags &&& 0xF0017771#32 = gcrWithFlags g flags := by
  have h1 : 0x7771#32 &&& 0xF0017771#32 = 0x7771#32 := by decide
  have h2 : 0xF0010000#32 &&& 0xF0017771#32 = 0xF0010000#32 := by decide
  rw [gcrWithFlags, BitVec.and_or_distrib_right, BitVec.and_assoc, BitVec.and_assoc, h1, h2]

theorem ite_zero_and {c : Prop} [Decidable c] {a m : Word} (h : a &&& m = a) :
    (if c then a else 0) &&& m = if c then a else 0 := by
  split
  · exact h
  · exact BitVec.zero_and

/-- The source mask is within IER (R47, R209). -/
theorem irqMask_and (c : ConfigD) : irqMask c &&& 0xF#32 = irqMask c := by
  have hreload : flagReload &&& 0xF#32 = flagReload := by decide
  rw [irqMask, BitVec.and_or_distrib_right, BitVec.and_or_distrib_right, BitVec.and_or_distrib_right, hreload,
    ite_zero_and (by decide), ite_zero_and (by decide), ite_zero_and (by decide)]

/-- The vectors and the sources enabled, and an immediate reload (R202, R209). -/
def State.armed (s : State) (c : ConfigD) : State :=
  ({ s with nvicEv := true, nvicEr := true, ier := irqMask c } : State).immediateReload

/-- The vectors and the sources enabled, the controller on, READY (R202). -/
def State.launched (s : State) (c : ConfigD) : State := { (s.armed c).turnedOn with drvState := .ready }

theorem started_eq (s : State) (p : Word) (c : ConfigD) (bg fg : LayerSpecD) :
    s.started p c bg fg = (((s.timed p c).putSpec .l1 bg).putSpec .l2 fg).launched c := rfl

@[simp] theorem immediateReload_sched : s.immediateReload.sched = s.sched := by simp [State.immediateReload]
@[simp] theorem immediateReload_cur : s.immediateReload.cur = s.cur := by simp [State.immediateReload]
@[simp] theorem immediateReload_irq : s.immediateReload.irq = s.irq := by simp [State.immediateReload]
@[simp] theorem immediateReload_activeWindow : s.immediateReload.activeWindow = s.activeWindow := by
  simp [State.immediateReload]

theorem turnedOn_takeBack (a b : Agent) : (s.takeBack a).turnedOn.takeBack b = s.turnedOn.takeBack b := rfl

theorem startTail_ends (h : s.sched = []) (hg : s.shadow.gcr &&& 0xF0017771#32 = s.shadow.gcr)
    (hk : k.Ends ((s.launched c).takeBack s.self) E) : (startTail c k).Ends s E := by
  have hself : ((s.armed c).takeBack s.self).self = s.self := self_congr (by simp [State.armed]) (by simp [State.armed])
  have hs : ((s.armed c).turnedOn.takeBack s.self).sched = [] := by simp [State.turnedOn, State.armed, h]
  refine ends_act h <| ends_act h <| ends_wr h ?_
  rw [regWrite_ier, irqMask_and]
  refine internalCommit_ends h <| turnOn_ends (s := (s.armed c).takeBack s.self) h hg ?_
  rw [turnedOn_takeBack, hself]
  exact ends_act hs hk

-- ==== START ====

theorem timed_withLock (ths : List Thread) (lk : Option Agent) :
    (s.withLock ths lk).timed p c = (s.timed p c).withLock ths lk := rfl

theorem putSpec_withLock (d : LayerSpecD) (ths : List Thread) (lk : Option Agent) :
    (s.withLock ths lk).putSpec l d = (s.putSpec l d).withLock ths lk := by
  unfold State.putSpec State.putSpecPalette
  split <;> rfl

theorem launched_withLock (ths : List Thread) (lk : Option Agent) :
    (s.withLock ths lk).launched c = (s.launched c).withLock ths lk := rfl

theorem launched_takeBack (a b : Agent) : ((s.takeBack a).launched c).takeBack b = (s.launched c).takeBack b := rfl
theorem launched_activeWindow : (s.launched c).activeWindow = s.activeWindow := by
  simp [State.launched, State.turnedOn, State.armed]
theorem launched_cur : (s.launched c).cur = s.cur := by
  simp [State.launched, State.turnedOn, State.armed]
theorem launched_sched : (s.launched c).sched = s.sched := by
  simp [State.launched, State.turnedOn, State.armed]

theorem started_withLock (bg fg : LayerSpecD) (ths : List Thread) (lk : Option Agent) :
    (s.withLock ths lk).started p c bg fg = (s.started p c bg fg).withLock ths lk := by
  rw [started_eq, started_eq, timed_withLock, putSpec_withLock, putSpec_withLock, launched_withLock]

theorem putSpec_takeBack (d : LayerSpecD) (a : Agent) : (s.takeBack a).putSpec l d = (s.putSpec l d).takeBack a := by
  unfold State.putSpec State.putSpecPalette
  split <;> rfl

/-- A whole-layer write leaves everything but the shadow registers and palettes (R67, R336). -/
theorem putSpec_eq (d : LayerSpecD) :
    s.putSpec l d = { s with shadow := (s.putSpec l d).shadow, clutShadow := (s.putSpec l d).clutShadow } := by
  unfold State.putSpec State.putSpecPalette
  split <;> rfl

@[simp] theorem putSpec_par (d : LayerSpecD) : (s.putSpec l d).par = s.par :=
  (congrArg State.par (putSpec_eq d)).trans rfl
@[simp] theorem putSpec_sched (d : LayerSpecD) : (s.putSpec l d).sched = s.sched :=
  (congrArg State.sched (putSpec_eq d)).trans rfl
@[simp] theorem putSpec_mem (d : LayerSpecD) : (s.putSpec l d).mem = s.mem :=
  (congrArg State.mem (putSpec_eq d)).trans rfl
@[simp] theorem putSpec_cfg (d : LayerSpecD) : (s.putSpec l d).cfg = s.cfg :=
  (congrArg State.cfg (putSpec_eq d)).trans rfl
@[simp] theorem putSpec_cur (d : LayerSpecD) : (s.putSpec l d).cur = s.cur :=
  (congrArg State.cur (putSpec_eq d)).trans rfl
@[simp] theorem putSpec_irq (d : LayerSpecD) : (s.putSpec l d).irq = s.irq :=
  (congrArg State.irq (putSpec_eq d)).trans rfl
@[simp] theorem putSpec_activeWindow (d : LayerSpecD) : (s.putSpec l d).activeWindow = s.activeWindow :=
  (congrArg State.activeWindow (putSpec_eq d)).trans rfl

@[simp] theorem putSpec_self (d : LayerSpecD) : (s.putSpec l d).self = s.self := self_congr (putSpec_irq d) (putSpec_cur d)

/-- The global registers stay in a whole-layer write (R336). -/
@[simp] theorem putSpec_gcr (d : LayerSpecD) : (s.putSpec l d).shadow.gcr = s.shadow.gcr := by
  unfold State.putSpec State.putSpecPalette
  split <;> cases l <;> rfl

/-- The other layer's registers stay in a whole-layer write (R13, R336). -/
theorem lay_putSpec_other (d : LayerSpecD) {l' : Layer} (h : l' ≠ l) : (s.putSpec l d).lay l' = s.lay l' := by
  rw [State.putSpec, State.lay_putLayer_other _ h]
  unfold State.putSpecPalette
  split <;> rfl

theorem started_activeWindow (bg fg : LayerSpecD) :
    (s.started p c bg fg).activeWindow = (s.timed p c).activeWindow := by
  rw [started_eq, launched_activeWindow, putSpec_activeWindow, putSpec_activeWindow]

/-- START comes to its second layer with the first written (R202, R336). -/
theorem startCore_firstWritten {ret : ResultVal → Prog} (h : s.sched = []) (hd : s.Passes (s.drvState == .stop)) (hp : p ≠ 0)
    (ha : aligned4 p = true) (hc : c = configAt s.mem p) (ht : s.Passes (timingsOk c)) (hr : specReadable s.mem c.bgSpec = true)
    (hok : s.Passes (specOk c.screenWidth c.screenHeight (s.timed p c).activeWindow (s.lay .l1).cr (specAt s.mem c.bgSpec)))
    (hk : (setLayerTo .l2 c.fgSpec <| startTail c (ret .unit)).Ends
      (((s.timed p c).putSpec .l1 (specAt s.mem c.bgSpec)).takeBack s.self) E) : (startCore p ret).Ends s E := by
  have hw : c.screenWidth = s.mem.readLe p 2 := by rw [hc]; rfl
  have hh : c.screenHeight = s.mem.readLe (p + 2) 2 := by rw [hc]; rfl
  rw [hw, hh] at hok
  refine startCore_timed h hd hp ha hc ht <| setLayerTo_writes h hr hp ha hok ?_
  rw [putSpec_takeBack]
  exact hk

/-- START, its checks passed, returns in the state `started` says, the lock taken back (R202, R206). -/
theorem startCore_returns {ret : ResultVal → Prog} (h : s.sched = []) (hd : s.Passes (s.drvState == .stop)) (hp : p ≠ 0)
    (ha : aligned4 p = true) (hc : c = configAt s.mem p) (ht : s.Passes (timingsOk c))
    (hrb : specReadable s.mem c.bgSpec = true) (hrf : specReadable s.mem c.fgSpec = true)
    (hokb : s.Passes (specOk c.screenWidth c.screenHeight (s.timed p c).activeWindow (s.lay .l1).cr (specAt s.mem c.bgSpec)))
    (hokf : s.Passes (specOk c.screenWidth c.screenHeight (s.timed p c).activeWindow (s.lay .l2).cr (specAt s.mem c.fgSpec)))
    (hk : (ret .unit).Ends ((s.started p c (specAt s.mem c.bgSpec) (specAt s.mem c.fgSpec)).takeBack s.self) E) :
    (startCore p ret).Ends s E := by
  have hw : c.screenWidth = s.mem.readLe p 2 := by rw [hc]; rfl
  have hh : c.screenHeight = s.mem.readLe (p + 2) 2 := by rw [hc]; rfl
  refine startCore_firstWritten h hd hp ha hc ht hrb hokb ?_
  have hself : (((s.timed p c).putSpec .l1 (specAt s.mem c.bgSpec)).putSpec .l2 (specAt s.mem c.fgSpec)).self = s.self := by
    rw [putSpec_self, putSpec_self]
    rfl
  rw [started_eq] at hk
  generalize hY : (s.timed p c).putSpec .l1 (specAt s.mem c.bgSpec) = Y at hk hself ⊢
  have hs : Y.sched = [] := by rw [← hY, putSpec_sched, State.timed_sched, h]
  have hm : Y.mem = s.mem := by rw [← hY, putSpec_mem, State.timed_mem]
  have hcfg : Y.cfg = p := by rw [← hY, putSpec_cfg]; rfl
  have hlay : Y.lay .l2 = s.lay .l2 := by rw [← hY, lay_putSpec_other _ (by decide)]; rfl
  have hgcr : Y.shadow.gcr &&& 0xF0017771#32 = Y.shadow.gcr := by
    rw [← hY, putSpec_gcr]
    exact gcrWithFlags_clean _ _
  have hok : Y.Passes (specOk (Y.mem.readLe Y.cfg 2) (Y.mem.readLe (Y.cfg + 2) 2) Y.activeWindow (Y.lay .l2).cr
      (specAt Y.mem c.fgSpec)) := by
    rw [State.Passes, hm, hcfg, hlay, ← hw, ← hh, ← hY, putSpec_par, State.timed_par, putSpec_activeWindow]
    exact hokf
  refine setLayerTo_writes (s := Y.takeBack s.self) hs (hm ▸ hrf) (hcfg ▸ hp) (hcfg ▸ ha) hok ?_
  rw [putSpec_takeBack, State.takeBack_mem, hm]
  refine startTail_ends ((putSpec_sched _).trans hs) (by rw [State.takeBack_shadow, putSpec_gcr]; exact hgcr) ?_
  rw [launched_takeBack]
  exact hself ▸ hk

/-- Settles O42: the three parts of the run, each layer written as `putSpec` says. -/
theorem startCompletes : Obligations.StartCompletes := by
  intro f o s c bg fg hm hi hd hp ha hc hbg hfg hrb hrf ht hokb hokf
  subst hbg hfg
  rw [started_activeWindow] at hokb hokf
  refine completes_schedLocked (g := fun s' => s'.started o.x c (specAt s.mem c.bgSpec) (specAt s.mem c.fgSpec)) rfl hm hi ?_
    (fun ths lk => started_withLock _ _ ths lk) ?_ ?_
  · rintro ret _ E ⟨ths, lk, rfl⟩ hk
    exact startCore_returns hi.1 hd hp ha hc ht hrb hrf hokb hokf hk
  · rw [started_eq, launched_cur, putSpec_cur, putSpec_cur, State.timed_cur]
  · rw [started_eq, launched_sched, putSpec_sched, putSpec_sched, State.timed_sched, hi.1]

end Sys2Proof.Machine
end

section
/-! PROOFS. O53: the first failing operand check of every command (R202, R208, R286, R306, R316, R317, R325, R326, R335, R336,
R360, R383, R392, R453, R456). First what the shared subroutines raise, and in which state; then the commands. -/

namespace Sys2Proof.Machine

variable {s t : State} {E : Cell → Out → Prop} {k : Prog} {o : Operands} {l : Layer} {f : Form} {p n sw sh : Word}
  {c : ConfigD} {e : FaultCode} {i : Instr}

-- ==== a frame, a window, a palette ====

theorem fmtOk_eq (x : Word) : fmtOk x = decide (x ≤ 7) := inRange_zero x 7

/-- A frame of no known format, whatever the configuration (R326). -/
theorem applyFrame_format {fr : FrameD} (h : s.sched = []) (hc : s.par.checks = true) (hn : s.cfg ≠ 0) (hf : ¬fr.fmt ≤ 7) :
    (applyFrame l fr k).Ends s (Raised .range s) :=
  ends_check h (.inr (bne_iff_ne.2 hn)) <| checkB_raises h hc (by rw [fmtOk_eq]; exact decide_eq_false hf)

/-- A frame that does not fit the screen, the line or its pitch (R326). -/
theorem applyFrame_geometry {fr : FrameD} (h : s.sched = []) (hc : s.par.checks = true) (hn : s.cfg ≠ 0)
    (ha : aligned4 s.cfg = true) (hf : fr.fmt ≤ 7)
    (hbad : frameOk (s.mem.readLe s.cfg 2) (s.mem.readLe (s.cfg + 2) 2) fr = false) :
    (applyFrame l fr k).Ends s (Raised .geometry s) := by
  have h0 : s.cfg + BitVec.ofNat 32 0 = s.cfg := by simp
  refine ends_check h (.inr (bne_iff_ne.2 hn)) <| ends_checkB h (.inr (by rw [fmtOk_eq]; exact decide_eq_true hf)) <|
    ends_crashCheck h (bne_iff_ne.2 hn) <| ends_cfgRd h hn ha <| ends_cfgRd h hn ha ?_
  rw [h0]
  refine ends_checkB_or h hc (fun _ => rfl) fun hw => ends_checkB_or h hc (fun _ => rfl) fun hh =>
    ends_checkB_or h hc (fun _ => rfl) fun hb => ends_checkB_or h hc (fun _ => rfl) fun hl =>
    checkB_raises h hc (Bool.eq_false_iff.2 fun hp => ?_)
  have hb' : decide (bytesPp fr.fmt * fr.width ≤ 8188) = true := (inRange_zero _ _).symm.trans hb
  have hl' : decide (fr.height ≤ 2047) = true := (inRange_zero _ _).symm.trans hl
  have hok : frameOk (s.mem.readLe s.cfg 2) (s.mem.readLe (s.cfg + 2) 2) fr = true := by
    simp only [frameOk, Bool.and_eq_true]
    exact ⟨⟨⟨⟨⟨decide_eq_true hf, hw⟩, hh⟩, hb'⟩, hl'⟩, hp⟩
  exact Bool.false_ne_true (hbad.symm.trans hok)

/-- A window beyond the active area (R316). -/
theorem applyWindow_raises {w : WindowD} (h : s.sched = []) (hc : s.par.checks = true)
    (hbad : windowOk s.activeWindow w = false) : (applyWindow l w k).Ends s (Raised .window s) := by
  refine ends_look <| ends_look <| ends_look <| ends_look <| ends_checkB_or h hc (fun _ => rfl) fun hhs =>
    ends_checkB_or h hc (fun _ => rfl) fun hhe => ends_checkB_or h hc (fun _ => rfl) fun hvs =>
    checkB_raises h hc (Bool.eq_false_iff.2 fun hve => ?_)
  have hok : windowOk s.activeWindow w = true := by
    simp only [windowOk, Bool.and_eq_true]
    exact ⟨⟨⟨hhs, hhe⟩, hvs⟩, hve⟩
  exact Bool.false_ne_true (hbad.symm.trans hok)

/-- The test that the layer is disabled (R305, R306). -/
theorem layerDisabled_eq (r : Word) : (!hasBits r crLen) = (r &&& 1 == 0) := by simp [hasBits, crLen, bne]

theorem applyPalette_enabled (h : s.sched = []) (hc : s.par.checks = true) (hr : (s.lay l).cr &&& 1 ≠ 0) :
    (applyPalette l p n k).Ends s (Raised .layerEnabled s) :=
  ends_rd h <| checkB_raises h hc ((layerDisabled_eq _).trans (beq_eq_false_iff_ne.2 hr))

theorem applyPalette_tooLong (h : s.sched = []) (hc : s.par.checks = true) (hr : (s.lay l).cr &&& 1 = 0) (hn : ¬n ≤ 256) :
    (applyPalette l p n k).Ends s (Raised .range s) :=
  ends_rd h <| ends_checkB h (.inr ((layerDisabled_eq _).trans (beq_iff_eq.2 hr))) <| checkB_raises h hc (decide_eq_false hn)

theorem applyPalette_null (h : s.sched = []) (hc : s.par.checks = true) (hr : (s.lay l).cr &&& 1 = 0) (hn : n ≤ 256)
    (h0 : n ≠ 0) : (applyPalette l 0 n k).Ends s (Raised .null s) :=
  ends_rd h <| ends_checkB h (.inr ((layerDisabled_eq _).trans (beq_iff_eq.2 hr))) <| ends_checkB h (.inr (decide_eq_true hn)) <|
    checkB_raises h hc (beq_eq_false_iff_ne.2 h0)

-- ==== a whole layer ====

/-- The fault of a whole-layer write as `specFault` says, in the state it says (R336, R453). -/
theorem applySpec_raises {d : LayerSpecD} (h : s.sched = []) (hc : s.par.checks = true) (hn : s.cfg ≠ 0)
    (ha : aligned4 s.cfg = true)
    (hf : s.specFault l (s.mem.readLe s.cfg 2) (s.mem.readLe (s.cfg + 2) 2) d = some (e, t)) :
    (applySpec l d k).Ends s (Raised e t) := by
  unfold State.specFault at hf
  split at hf
  next hfmt =>
    cases hf
    exact applyFrame_format h hc hn hfmt
  next hfmt =>
  split at hf
  next hgeo =>
    cases hf
    exact applyFrame_geometry h hc hn ha (Classical.not_not.1 hfmt) hgeo
  next hgeo =>
  have hgeo := eq_true_of_ne_false hgeo
  split at hf
  next hwin =>
    cases hf
    exact applyFrame_ends h hn ha (.inr hgeo) <| applyWindow_raises h hc hwin
  next hwin =>
  have hwin := eq_true_of_ne_false hwin
  refine applySpec_ends h hn ha (.inr hgeo) (.inr hwin) ?_
  split at hf
  next hpal =>
    cases hf
    rw [optPalette, if_pos hpal.1]
    exact applyPalette_enabled h hc (by rw [lay_beforePalette_cr]; exact hpal.2)
  next hpal =>
  split at hf
  next hlen =>
    cases hf
    rw [optPalette, if_pos hlen.1]
    exact applyPalette_tooLong h hc (by rw [lay_beforePalette_cr]; exact Classical.not_not.1 fun hr => hpal ⟨hlen.1, hr⟩) hlen.2
  next => cases hf

theorem setLayerTo_raisesFault (h : s.sched = []) (hc : s.par.checks = true) (hr : recordReadable p = true) (hn : s.cfg ≠ 0)
    (ha : aligned4 s.cfg = true)
    (hf : s.specFault l (s.mem.readLe s.cfg 2) (s.mem.readLe (s.cfg + 2) 2) (specAt s.mem p) = some (e, t)) :
    (setLayerTo l p k).Ends s (Raised e t) :=
  setLayerTo_ends h hr <| applySpec_raises h hc hn ha hf

/-- A specification with no fault passes every check (R336). -/
theorem specOk_of_specFault_none {d : LayerSpecD} (hf : s.specFault l sw sh d = none) :
    specOk sw sh s.activeWindow (s.lay l).cr d = true := by
  unfold State.specFault at hf
  split at hf
  · cases hf
  split at hf
  · cases hf
  next hgeo =>
  split at hf
  · cases hf
  next hwin =>
  split at hf
  · cases hf
  next hpal =>
  split at hf
  · cases hf
  next hlen =>
  have hgeo := eq_true_of_ne_false hgeo
  have hwin := eq_true_of_ne_false hwin
  have hpal' : (d.palPtr == 0 || ((s.lay l).cr &&& 1 == 0 && decide (d.palLen ≤ 256))) = true := by
    by_cases h0 : d.palPtr = 0
    · rw [beq_iff_eq.2 h0, Bool.true_or]
    · have hr := Classical.not_not.1 fun hr => hpal ⟨h0, hr⟩
      have hn := Classical.not_not.1 fun hn => hlen ⟨h0, hn⟩
      rw [beq_iff_eq.2 hr, decide_eq_true hn, Bool.and_self, Bool.or_true]
  rw [specOk, hgeo, hwin, hpal']
  rfl

/-- The faults of a specification do not depend on the threads or the lock (R336). -/
theorem specFault_withLock (d : LayerSpecD) (ths : List Thread) (lk : Option Agent) :
    (s.withLock ths lk).specFault l sw sh d = (s.specFault l sw sh d).map fun q => (q.1, q.2.withLock ths lk) := by
  unfold State.specFault
  simp only [apply_ite (Option.map _), Option.map_some, Option.map_none]
  rfl

theorem specFault_withLock_some {d : LayerSpecD} {ths : List Thread} {lk : Option Agent}
    (hf : s.specFault l sw sh d = some (e, t)) :
    (s.withLock ths lk).specFault l sw sh d = some (e, t.withLock ths lk) := by
  rw [specFault_withLock, hf]
  rfl

theorem specFault_withLock_none {d : LayerSpecD} {ths : List Thread} {lk : Option Agent}
    (hf : s.specFault l sw sh d = none) : (s.withLock ths lk).specFault l sw sh d = none := by
  rw [specFault_withLock, hf]
  rfl

/-- A specification's fault comes in a state of the same agent (R453). -/
theorem self_of_specFault {d : LayerSpecD} (hf : s.specFault l sw sh d = some (e, t)) : t.self = s.self := by
  unfold State.specFault at hf
  repeat' split at hf
  all_goals cases hf <;> rfl

-- ==== START's timings ====

/-- The four timing registers replaced (R41 to R44). -/
def State.withTimings (s : State) (a b w z : Word) : State :=
  { s with shadow := { s.shadow with sscr := a, bpcr := b, awcr := w, twcr := z } }

/-- The end of a run that raises `code` in `s` but for the timing registers, some of which it has written. -/
def RaisedInTimings (code : FaultCode) (s : State) (c : Cell) (out : Out) : Prop :=
  ∃ a b w z, Raised code (s.withTimings a b w z) c out

/-- Timings out of range are found before anything but timing registers is written (R208). -/
theorem programTimings_raises (h : s.sched = []) (hc : s.par.checks = true) (ht : timingsOk c = false) :
    (programTimings c k).Ends s (RaisedInTimings .range s) := by
  refine ends_checkB_or h hc (fun _ => ⟨_, _, _, _, rfl⟩) fun hhs => ends_checkB_or h hc (fun _ => ⟨_, _, _, _, rfl⟩) fun hvs =>
    ends_wr h <| ends_checkB_or h hc (fun _ => ⟨_, _, _, _, rfl⟩) fun hhb =>
    ends_checkB_or h hc (fun _ => ⟨_, _, _, _, rfl⟩) fun hvb => ends_checkB_or h hc (fun _ => ⟨_, _, _, _, rfl⟩) fun hahb =>
    ends_checkB_or h hc (fun _ => ⟨_, _, _, _, rfl⟩) fun havb => ends_wr h <|
    ends_checkB_or h hc (fun _ => ⟨_, _, _, _, rfl⟩) fun hsw => ends_checkB_or h hc (fun _ => ⟨_, _, _, _, rfl⟩) fun hsh =>
    ends_checkB_or h hc (fun _ => ⟨_, _, _, _, rfl⟩) fun hahs => ends_checkB_or h hc (fun _ => ⟨_, _, _, _, rfl⟩) fun havs =>
    ends_wr h <| ends_checkB_or h hc (fun _ => ⟨_, _, _, _, rfl⟩) fun hhf =>
    ends_checkB_or h hc (fun _ => ⟨_, _, _, _, rfl⟩) fun hvf => ends_checkB_or h hc (fun _ => ⟨_, _, _, _, rfl⟩) fun hahf =>
    ends_checkB_or h hc (fun _ => ⟨_, _, _, _, rfl⟩) fun havf => ?_
  have hok : timingsOk c = true := by
    simp only [timingsOk, Bool.and_eq_true]
    exact ⟨⟨⟨⟨⟨⟨⟨⟨⟨⟨⟨⟨⟨hhs, hvs⟩, hhb⟩, hvb⟩, hahb⟩, havb⟩, hsw⟩, hsh⟩, hahs⟩, havs⟩, hhf⟩, hvf⟩, hahf⟩, havf⟩
  exact absurd (ht.symm.trans hok) Bool.false_ne_true

-- ==== START ====

theorem start_nullPointer (hc : s.par.checks = true) (hm : s.MayRunS f) (hi : s.Issued (.start f) o) (hd : s.drvState = .stop)
    (h0 : o.x = 0) : FaultsAtOnce (.start f) s .null none := by
  refine (reachesCore_schedLocked rfl hm hi).faultsAtOnce ?_
  rintro ret _ ⟨ths, lk, rfl⟩
  exact ends_check hi.1 (.inr (beq_iff_eq.2 hd)) <| checkB_raises hi.1 hc (by simpa using h0)

/-- START with timings out of range: the configuration held, the controller off and committed, and of the rest only timing
registers written (R202, R208). -/
theorem start_timings (hc : s.par.checks = true) (hm : s.MayRunS f) (hi : s.Issued (.start f) o) (hd : s.drvState = .stop)
    (hp : o.x ≠ 0) (ha : aligned4 o.x = true) (ht : timingsOk (configAt s.mem o.x) = false) :
    FaultsAfter (.start f) s .range none fun t =>
      t.events = s.events ++ [.commit ((s.srcr ||| 1) &&& 3), .fault .range] ∧ t.drvState = .stop ∧ t.cfg = o.x
        ∧ t.ier = 0 ∧ t.shadow.gcr = s.shadow.gcr &&& 0xF0017770#32 ∧ t.active.gcr = t.shadow.gcr
        ∧ t.shadow.l1 = s.shadow.l1 ∧ t.shadow.l2 = s.shadow.l2 ∧ t.shadow.bccr = s.shadow.bccr
        ∧ t.activeWindow = s.activeWindow ∧ t.nvicEv = s.nvicEv ∧ t.nvicEr = s.nvicEr ∧ t.mem = s.mem := by
  obtain ⟨c', _, ⟨ths, lk, rfl⟩, hw, a, b, w, z, he⟩ := (reachesCore_schedLocked rfl hm hi).ends
    (E := fun s' => RaisedInTimings .range (({ s' with cfg := o.x } : State).turnedOff.takeBack s'.self)) (by
      rintro ret _ ⟨ths, lk, rfl⟩
      exact startCore_ends hi.1 (.inr (beq_iff_eq.2 hd)) hp ha <| programTimings_raises hi.1 hc ht)
  refine ⟨_, c'.step, he, ?_, ?_⟩
  · rw [raise_fault, hw]
    rfl
  · simp [raise_events, State.withTimings, State.turnedOff, State.immediateReload, regWrite_srcr, hd]

/-- START's first layer faults as `specFault` says (R202, R336). -/
theorem startCore_firstFault {ret : ResultVal → Prog} (h : s.sched = []) (hck : s.par.checks = true) (hd : s.drvState = .stop)
    (hp : p ≠ 0) (ha : aligned4 p = true) (hc : c = configAt s.mem p) (ht : timingsOk c = true)
    (hr : recordReadable c.bgSpec = true)
    (hf : (s.timed p c).specFault .l1 c.screenWidth c.screenHeight (specAt s.mem c.bgSpec) = some (e, t)) :
    (startCore p ret).Ends s (Raised e (t.withLock s.threads (some s.self))) := by
  have hw : c.screenWidth = s.mem.readLe p 2 := by rw [hc]; rfl
  have hh : c.screenHeight = s.mem.readLe (p + 2) 2 := by rw [hc]; rfl
  refine startCore_timed h (.inr (beq_iff_eq.2 hd)) hp ha hc (.inr ht) ?_
  have hlock : (s.timed p c).takeBack s.self = (s.timed p c).withLock s.threads (some s.self) := rfl
  rw [hlock]
  refine setLayerTo_raisesFault h hck hr hp ha ?_
  show ((s.timed p c).withLock s.threads (some s.self)).specFault .l1 (s.mem.readLe p 2) (s.mem.readLe (p + 2) 2)
    (specAt s.mem c.bgSpec) = _
  rw [← hw, ← hh]
  exact specFault_withLock_some hf

/-- START's second layer faults as `specFault` says, the first written (R202, R336). -/
theorem startCore_secondFault {ret : ResultVal → Prog} (h : s.sched = []) (hck : s.par.checks = true) (hd : s.drvState = .stop)
    (hp : p ≠ 0) (ha : aligned4 p = true) (hc : c = configAt s.mem p) (ht : timingsOk c = true)
    (hrb : specReadable s.mem c.bgSpec = true) (hrf : recordReadable c.fgSpec = true)
    (hnone : (s.timed p c).specFault .l1 c.screenWidth c.screenHeight (specAt s.mem c.bgSpec) = none)
    (hf : ((s.timed p c).putSpec .l1 (specAt s.mem c.bgSpec)).specFault .l2 c.screenWidth c.screenHeight
      (specAt s.mem c.fgSpec) = some (e, t)) :
    (startCore p ret).Ends s (Raised e (t.withLock s.threads (some s.self))) := by
  have hw : c.screenWidth = s.mem.readLe p 2 := by rw [hc]; rfl
  have hh : c.screenHeight = s.mem.readLe (p + 2) 2 := by rw [hc]; rfl
  have hlay : (s.timed p c).lay .l1 = s.lay .l1 := rfl
  have hok := hlay ▸ specOk_of_specFault_none hnone
  refine startCore_firstWritten h (.inr (beq_iff_eq.2 hd)) hp ha hc (.inr ht) hrb (.inr hok) ?_
  have hths : ((s.timed p c).putSpec .l1 (specAt s.mem c.bgSpec)).threads = s.threads := by rw [putSpec_eq]; rfl
  generalize hY : (s.timed p c).putSpec .l1 (specAt s.mem c.bgSpec) = Y at hf hths ⊢
  have hs : Y.sched = [] := by rw [← hY, putSpec_sched, State.timed_sched, h]
  have hm : Y.mem = s.mem := by rw [← hY, putSpec_mem, State.timed_mem]
  have hcfg : Y.cfg = p := by rw [← hY, putSpec_cfg]; rfl
  have hpar : Y.par.checks = true := by rw [← hY, putSpec_par, State.timed_par, hck]
  have hlock : Y.takeBack s.self = Y.withLock s.threads (some s.self) := by rw [← hths]; rfl
  rw [hlock]
  refine setLayerTo_raisesFault hs hpar hrf (hcfg.symm ▸ hp) (hcfg.symm ▸ ha) ?_
  show (Y.withLock s.threads (some s.self)).specFault .l2 (Y.mem.readLe Y.cfg 2) (Y.mem.readLe (Y.cfg + 2) 2)
    (specAt Y.mem c.fgSpec) = _
  rw [hm, hcfg, ← hw, ← hh]
  exact specFault_withLock_some hf

end Sys2Proof.Machine
end

section
/-! PROOFS. O53, the commands: each core is run to the check that fails, by the rules above. -/

namespace Sys2Proof.Machine

variable {s t : State} {o : Operands} {l : Layer} {f : Form} {i : Instr} {e : FaultCode} {c : ConfigD}

-- ==== one operand ====

theorem setLinePos_range (hc : s.par.checks = true) (hm : s.MayRunI f) (hi : s.Issued (.setLinePos f) o) (hx : ¬o.x ≤ 0x7FF) :
    FaultsAtOnce (.setLinePos f) s .range none :=
  (reachesCore_intSafe rfl hm hi).faultsAtFirstCheck hi hc (fun _ => ⟨_, rfl⟩) fun _ _ => by
    rw [vbitsMask_eq]
    exact decide_eq_false hx

theorem setPixelFormat_range (hc : s.par.checks = true) (hm : s.MayRunI f) (hi : s.Issued (.setPixelFormat l f) o)
    (hx : ¬o.x ≤ 7) : FaultsAtOnce (.setPixelFormat l f) s .range none :=
  (reachesCore_intSafe rfl hm hi).faultsAtFirstCheck hi hc (fun _ => ⟨_, rfl⟩) fun _ _ => by
    rw [fmtOk_eq]
    exact decide_eq_false hx

/-- The helpers check their format first (R360, R364, R365). -/
theorem helper_range {fmt : Word} (hcls : i.cls = some .pure) (hc : s.par.checks = true) (hi : s.Issued i o)
    (hcore : ∀ ret, ∃ k, i.coreOf s.par.useWait o ret = checkB (fmtOk fmt) .range k) (hx : ¬fmt ≤ 7) :
    FaultsAtOnce i s .range none :=
  (reachesCore_anyContext (.inr hcls) hi).faultsAtFirstCheck hi hc hcore fun _ _ => by
    rw [fmtOk_eq]
    exact decide_eq_false hx

-- ==== the palette ====

theorem setPaletteEntry_enabled (hc : s.par.checks = true) (hm : s.MayRunI f) (hi : s.Issued (.setPaletteEntry l f) o)
    (hr : (s.lay l).cr &&& 1 ≠ 0) : FaultsAtOnce (.setPaletteEntry l f) s .layerEnabled none := by
  refine (reachesCore_intSafe rfl hm hi).faultsAtOnce ?_
  rintro ret _ ⟨ths, lk, rfl⟩
  exact ends_rd hi.1 <| checkB_raises hi.1 hc ((layerDisabled_eq _).trans (beq_eq_false_iff_ne.2 hr))

theorem setPaletteEntry_range (hc : s.par.checks = true) (hm : s.MayRunI f) (hi : s.Issued (.setPaletteEntry l f) o)
    (hr : (s.lay l).cr &&& 1 = 0) (hx : ¬o.x < 256) : FaultsAtOnce (.setPaletteEntry l f) s .range none := by
  refine (reachesCore_intSafe rfl hm hi).faultsAtOnce ?_
  rintro ret _ ⟨ths, lk, rfl⟩
  exact ends_rd hi.1 <| ends_checkB hi.1 (.inr ((layerDisabled_eq _).trans (beq_iff_eq.2 hr))) <|
    checkB_raises hi.1 hc (decide_eq_false hx)

/-- SET_PALETTE's three checks, in their order (R306). -/
theorem setPalette_faults (hc : s.par.checks = true) (hm : s.MayRunI f) (hi : s.Issued (.setPalette l f) o) :
    ((s.lay l).cr &&& 1 ≠ 0 → FaultsAtOnce (.setPalette l f) s .layerEnabled none)
      ∧ ((s.lay l).cr &&& 1 = 0 → ¬o.y ≤ 256 → FaultsAtOnce (.setPalette l f) s .range none)
      ∧ ((s.lay l).cr &&& 1 = 0 → o.y ≤ 256 → o.x = 0 → o.y ≠ 0 → FaultsAtOnce (.setPalette l f) s .null none) := by
  have hcore : ReachesCore (.setPalette l f) o s := reachesCore_intSafe rfl hm hi
  refine ⟨fun hr => hcore.faultsAtOnce ?_, fun hr hn => hcore.faultsAtOnce ?_, fun hr hn h0 hy => hcore.faultsAtOnce ?_⟩ <;>
    rintro ret _ ⟨ths, lk, rfl⟩
  · exact applyPalette_enabled hi.1 hc hr
  · exact applyPalette_tooLong hi.1 hc hr hn
  · obtain ⟨x, y⟩ := o
    cases h0
    exact applyPalette_null hi.1 hc hr hn hy

-- ==== the records of a layer ====

/-- The commands of one record check its pointer first (R315, R316, R325, R326, R335). -/
theorem NamesRecord.null_checked (hn : NamesRecord l f i) (hc : s.par.checks = true) (hm : s.MayRunI f) (hi : s.Issued i o)
    (h0 : o.x = 0) : FaultsAtOnce i s .null none := by
  refine (hn.reachesCore hm hi).faultsAtFirstCheck (g := fun _ => o.x != 0) hi hc (fun ret => ?_) fun _ _ => by simp [h0]
  rcases hn with rfl | rfl | rfl | rfl | rfl <;> exact ⟨_, rfl⟩

theorem setWindow_window (hc : s.par.checks = true) (hm : s.MayRunI f) (hi : s.Issued (.setWindow l f) o) (h0 : o.x ≠ 0)
    (ha : aligned4 o.x = true) (hw : windowOk s.activeWindow (windowAt s.mem o.x) = false) :
    FaultsAtOnce (.setWindow l f) s .window none := by
  have hx : o.x + BitVec.ofNat 32 0 = o.x := by simp
  refine (reachesCore_intSafe rfl hm hi).faultsAtOnce ?_
  rintro ret _ ⟨ths, lk, rfl⟩
  exact ends_checkB hi.1 (.inr (bne_iff_ne.2 h0)) <| readWindow_ends hi.1 ha (hx.symm ▸ h0) <|
    applyWindow_raises hi.1 hc (hx.symm ▸ hw)

theorem setInvalidWindow_window (hc : s.par.checks = true) (hm : s.MayRunI f) (hi : s.Issued (.setInvalidWindow l f) o)
    (hw : windowOk s.activeWindow ⟨0, 0, 0, 0⟩ = false) : FaultsAtOnce (.setInvalidWindow l f) s .window none := by
  refine (reachesCore_intSafe rfl hm hi).faultsAtOnce ?_
  rintro ret _ ⟨ths, lk, rfl⟩
  exact applyWindow_raises hi.1 hc hw

/-- SET_FRAME's checks, in their order: the pointer, the configuration, the format, the geometry (R326). -/
theorem setFrame_faults (hc : s.par.checks = true) (hm : s.MayRunI f) (hi : s.Issued (.setFrame l f) o) :
    (o.x = 0 → FaultsAtOnce (.setFrame l f) s .null none)
      ∧ (o.x ≠ 0 → aligned4 o.x = true → s.cfg = 0 → FaultsAtOnce (.setFrame l f) s .state none)
      ∧ (o.x ≠ 0 → aligned4 o.x = true → s.cfg ≠ 0 → ¬(frameAt s.mem o.x).fmt ≤ 7 →
        FaultsAtOnce (.setFrame l f) s .range none)
      ∧ (o.x ≠ 0 → aligned4 o.x = true → s.cfg ≠ 0 → aligned4 s.cfg = true → (frameAt s.mem o.x).fmt ≤ 7 →
        frameOk (s.mem.readLe s.cfg 2) (s.mem.readLe (s.cfg + 2) 2) (frameAt s.mem o.x) = false →
        FaultsAtOnce (.setFrame l f) s .geometry none) := by
  have hcore : ReachesCore (.setFrame l f) o s := reachesCore_intSafe rfl hm hi
  refine ⟨NamesRecord.null_checked (.inr (.inr (.inl rfl))) hc hm hi, fun h0 ha hn => hcore.faultsAtOnce ?_,
    fun h0 ha hn hf => hcore.faultsAtOnce ?_, fun h0 ha hn hca hf hg => hcore.faultsAtOnce ?_⟩ <;>
    rintro ret _ ⟨ths, lk, rfl⟩ <;>
    refine ends_checkB hi.1 (.inr (bne_iff_ne.2 h0)) <| readFrame_ends hi.1 ha h0 ?_
  · exact check_raises hi.1 hc (by simpa using hn)
  · exact applyFrame_format hi.1 hc hn hf
  · exact applyFrame_geometry hi.1 hc hn hca hf hg

theorem setLayer_state (hc : s.par.checks = true) (hm : s.MayRunI f) (hi : s.Issued (.setLayer l f) o)
    (hr : recordReadable o.x = true) (hn : s.cfg = 0) : FaultsAtOnce (.setLayer l f) s .state none := by
  refine (reachesCore_intSafe rfl hm hi).faultsAtOnce ?_
  rintro ret _ ⟨ths, lk, rfl⟩
  exact setLayerTo_ends hi.1 hr <| check_raises hi.1 hc (by simpa using hn)

theorem setLayer_format (hc : s.par.checks = true) (hm : s.MayRunI f) (hi : s.Issued (.setLayer l f) o)
    (hr : recordReadable o.x = true) (hn : s.cfg ≠ 0) (hf : ¬(specAt s.mem o.x).frame.fmt ≤ 7) :
    FaultsAtOnce (.setLayer l f) s .range none := by
  refine (reachesCore_intSafe rfl hm hi).faultsAtOnce ?_
  rintro ret _ ⟨ths, lk, rfl⟩
  exact setLayerTo_ends hi.1 hr <| applyFrame_format hi.1 hc hn hf

/-- SET_LAYER faults as `specFault` says, in the state it says (R336). -/
theorem setLayer_specFault (hc : s.par.checks = true) (hm : s.MayRunI f) (hi : s.Issued (.setLayer l f) o)
    (hr : recordReadable o.x = true) (hn : s.cfg ≠ 0) (ha : aligned4 s.cfg = true)
    (hf : s.specFault l (s.mem.readLe s.cfg 2) (s.mem.readLe (s.cfg + 2) 2) (specAt s.mem o.x) = some (e, t)) :
    FaultsLeaving (.setLayer l f) s t e none := by
  refine (reachesCore_intSafe rfl hm hi).faultsLeaving (self_of_specFault hf) ?_
  rintro ret _ ⟨ths, lk, rfl⟩
  refine ⟨t.withLock ths lk, ⟨ths, lk, rfl⟩, setLayerTo_raisesFault (s := s.withLock ths lk) hi.1 hc hr hn ha ?_⟩
  exact specFault_withLock_some hf

-- ==== START's two layers ====

theorem start_firstFault (hck : s.par.checks = true) (hm : s.MayRunS f) (hi : s.Issued (.start f) o) (hd : s.drvState = .stop)
    (hp : o.x ≠ 0) (ha : aligned4 o.x = true) (hc : c = configAt s.mem o.x) (ht : timingsOk c = true)
    (hr : recordReadable c.bgSpec = true)
    (hf : (s.timed o.x c).specFault .l1 c.screenWidth c.screenHeight (specAt s.mem c.bgSpec) = some (e, t)) :
    FaultsLeaving (.start f) s t e none := by
  have hself : t.self = s.self := (self_of_specFault hf).trans rfl
  refine (reachesCore_schedLocked rfl hm hi).faultsLeaving hself ?_
  rintro ret _ ⟨ths, lk, rfl⟩
  refine ⟨(t.withLock ths lk).withLock ths (some s.self), ⟨ths, some s.self, rfl⟩,
    startCore_firstFault (s := s.withLock ths lk) hi.1 hck hd hp ha hc ht hr ?_⟩
  rw [timed_withLock]
  exact specFault_withLock_some hf

theorem start_secondFault (hck : s.par.checks = true) (hm : s.MayRunS f) (hi : s.Issued (.start f) o) (hd : s.drvState = .stop)
    (hp : o.x ≠ 0) (ha : aligned4 o.x = true) (hc : c = configAt s.mem o.x) (ht : timingsOk c = true)
    (hrb : specReadable s.mem c.bgSpec = true) (hrf : recordReadable c.fgSpec = true)
    (hnone : (s.timed o.x c).specFault .l1 c.screenWidth c.screenHeight (specAt s.mem c.bgSpec) = none)
    (hf : ((s.timed o.x c).putSpec .l1 (specAt s.mem c.bgSpec)).specFault .l2 c.screenWidth c.screenHeight
      (specAt s.mem c.fgSpec) = some (e, t)) :
    FaultsLeaving (.start f) s t e none := by
  have hself : t.self = s.self := (self_of_specFault hf).trans (putSpec_self _)
  refine (reachesCore_schedLocked rfl hm hi).faultsLeaving hself ?_
  rintro ret _ ⟨ths, lk, rfl⟩
  refine ⟨(t.withLock ths lk).withLock ths (some s.self), ⟨ths, some s.self, rfl⟩,
    startCore_secondFault (s := s.withLock ths lk) hi.1 hck hd hp ha hc ht hrb hrf ?_ ?_⟩
  · rw [timed_withLock]
    exact specFault_withLock_none hnone
  · rw [timed_withLock, putSpec_withLock]
    exact specFault_withLock_some hf

-- ==== the panel ====

theorem pnlStart_nullPointer (hc : s.par.checks = true) (hx : s.ctx = .thread) (hi : s.Issued .pnlStart o)
    (hs : s.pnlState = .stop) (h0 : o.x = 0) : FaultsAtOnce .pnlStart s .null none := by
  refine (reachesCore_panel rfl rfl (.inr (beq_iff_eq.2 hx)) hi).faultsAtOnce ?_
  rintro ret _ ⟨ths, lk, rfl⟩
  exact ends_check hi.1 (.inr (beq_iff_eq.2 hs)) <| checkB_raises hi.1 hc (by simpa using h0)

/-- The chunk commands' length, then their pointer (R392, R393). -/
theorem chunk_faults (hchunk : i = .pnlWriteChunk ∨ i = .pnlReadChunk) (hc : s.par.checks = true) (hx : s.ctx = .thread)
    (hi : s.Issued i o) (hs : s.pnlState = .active) :
    (o.y = 0 → FaultsAtOnce i s .range none) ∧ (o.y ≠ 0 → o.x = 0 → FaultsAtOnce i s .null none) := by
  obtain ⟨hcls, hpnl, k, hk⟩ : i.cls = some .api ∧ i.isPanel = true
      ∧ ∃ k : (ResultVal → Prog) → Prog, ∀ ret, i.coreOf s.par.useWait o ret = chunkHead o.x o.y (k ret) := by
    rcases hchunk with rfl | rfl <;> exact ⟨rfl, rfl, _, fun _ => rfl⟩
  have hcore : ReachesCore i o s := reachesCore_panel hcls hpnl (.inr (beq_iff_eq.2 hx)) hi
  refine ⟨fun hn => hcore.faultsAtOnce ?_, fun hn h0 => hcore.faultsAtOnce ?_⟩ <;>
    rintro ret _ ⟨ths, lk, rfl⟩ <;> rw [hk] <;>
    refine ends_check hi.1 (.inr (beq_iff_eq.2 hs)) ?_
  · exact checkB_raises hi.1 hc (by rw [hn]; rfl)
  · have h1 : (1 : Word) ≤ o.y := by bv_omega
    exact ends_checkB hi.1 (.inr (decide_eq_true h1)) <| checkB_raises hi.1 hc (by simpa using h0)

/-- Settles O53: each clause by the lemma above that runs its command to the check that fails. -/
theorem operandFaults : Obligations.OperandFaults := by
  refine ⟨fun l c o s hck hm => ⟨setLinePos_range hck hm, setPixelFormat_range hck hm, fun hi => ?_, setPalette_faults hck hm,
      fun hi => ?_, setInvalidWindow_window hck hm, fun i hn hi => ?_, setFrame_faults hck hm, fun hi hr => ?_⟩,
    fun o s hck => ⟨fun hi => helper_range rfl hck hi fun _ => ⟨_, rfl⟩, fun i hn hi => ?_⟩,
    fun c o s hck hm hi hd => ⟨start_nullPointer hck hm hi hd, start_timings hck hm hi hd, fun d hc hp ha ht hr => ?_⟩,
    fun o s hck hx => ⟨pnlStart_nullPointer hck hx, fun i hn => chunk_faults hn hck hx⟩⟩
  · exact ⟨setPaletteEntry_enabled hck hm hi, setPaletteEntry_range hck hm hi⟩
  · exact ⟨NamesRecord.null_checked (.inl rfl) hck hm hi, setWindow_window hck hm hi⟩
  · have hn : NamesRecord l c i := by
      rcases hn with h | h | h
      · exact .inr (.inl h)
      · exact .inr (.inr (.inr (.inl h)))
      · exact .inr (.inr (.inr (.inr h)))
    exact hn.null_checked hck hm hi
  · exact ⟨setLayer_state hck hm hi hr, setLayer_format hck hm hi hr,
      fun hn ha e s' => setLayer_specFault hck hm hi hr hn ha⟩
  · rcases hn with rfl | rfl <;> exact helper_range rfl hck hi fun _ => ⟨_, rfl⟩
  · exact ⟨fun e s' => start_firstFault hck hm hi hd hp ha hc ht hr,
      fun hrb hrf hnone e s' => start_secondFault hck hm hi hd hp ha hc ht hrb hrf hnone⟩

end Sys2Proof.Machine
end

section
/-! PROOFS. O32, O33, O34: the accessors of one layer register (R280 to R297, R307 to R309, R327, R328). A getter is one register
read; a setter, with a check or a read before it or without, ends in one register write. -/

namespace Sys2Proof.Machine

variable {s t : State} {i : Instr} {o : Operands} {c : Form} {v : ResultVal} {l : Layer} {q : LReg} {x w : Word}

-- ==== from the core to the command ====

/-- Taking the lock and giving it back, before and after what leaves the threads alone, leaves no trace (R36, R143). -/
theorem releaseLock_withLock (hths : t.threads = s.threads) (hcur : t.cur = s.cur) (hlk : t.lockHolder = none)
    (hu : (s.threadAt s.cur).locked = false) :
    (t.withLock (s.takeLock s.cur).threads (some (.thread s.cur))).releaseLock t.cur = t := by
  have htake : (s.takeLock s.cur).threads = (t.takeLock t.cur).threads := by
    simp only [State.takeLock, State.setThread, hths, hcur]
  have hut : (t.threadAt t.cur).locked = false := by
    simpa only [State.threadAt, hths, hcur] using hu
  rw [htake]
  exact releaseLock_takeLock hut hlk

/-- An api form returns once it has given its lock back (R143). -/
theorem unlockStep_returns {t' : State} (h : t'.sched = []) (hback : t'.releaseLock t'.cur = t) :
    (unlockStep (.done v)).Ends t' (Returned t v) :=
  .of_push (fun _ => run_unlockStep h) (hback.symm ▸ done_returns)

/-- A class I command whose core returns `v` in `t`, whoever holds the lock, completes in `t` (R142, R143). -/
theorem completes_intSafe (hc : i.cls = some (.intSafe c)) (hm : s.MayRunI c) (hi : s.Issued i o)
    (hr : ∀ ret ths lk E, (ret v).Ends (t.withLock ths lk) E → (i.coreOf s.par.useWait o ret).Ends (s.withLock ths lk) E)
    (hths : t.threads = s.threads) (hlk : t.lockHolder = s.lockHolder) (hcur : t.cur = s.cur) (hsched : t.sched = []) :
    Completes i s t v := by
  have he := exec_eq_command s hc
  have hw := wellFormed_of_form s.par.useMutex (.inl hc)
  cases c with
  | api =>
    obtain ⟨hctx, hl⟩ := hm
    have hback := releaseLock_withLock hths hcur (hlk.trans hl) (ctx_thread_iff.1 hctx).2
    obtain ⟨c', hcw, hE⟩ := hr (fun v => unlockStep (.done v)) (s.takeLock s.cur).threads (some (.thread s.cur))
      (Returned t v) (unlockStep_returns hsched hback) ⟨encode i, o, 3, [0, 0, 0], none⟩
    rw [Completes, he, command_intSafe_api hi hw hctx hl]
    exact hE.trans (by rw [hcw])
  | locked =>
    have hsame : t.withLock s.threads s.lockHolder = t := by rw [← hths, ← hlk]; rfl
    obtain ⟨c', hcw, hE⟩ := hr .done s.threads s.lockHolder (Returned t v) (hsame.symm ▸ done_returns)
      ⟨encode i, o, 2, [0, 0], none⟩
    rw [Completes, he, command_intSafe_locked hi hw hm]
    exact hE.trans (by rw [hcw])

/-- A command whose core comes to the return by writing `x` to a layer register: its shadow cell takes `x`, cut to the
register's writable bits, and nothing else changes (R15, R67). -/
theorem completes_layerWrite (hq : q ≠ .clutwr) (hx : x &&& q.writableMask = w) (hc : i.cls = some (.intSafe c))
    (hm : s.MayRunI c) (hi : s.Issued i o)
    (hr : ∀ ret ths lk E, (wr (.lay l q) x (ret .unit)).Ends (s.withLock ths lk) E →
      (i.coreOf s.par.useWait o ret).Ends (s.withLock ths lk) E) :
    Completes i s (s.putLayer l ((s.lay l).put w q)) .unit := by
  refine completes_intSafe hc hm hi (fun ret ths lk E hk => hr ret ths lk E (ends_wr hi.1 ?_)) rfl rfl rfl hi.1
  rw [regWrite_lay hq, hx]
  exact hk

/-- A command that writes an operand's value to a layer register. -/
theorem completes_set (hq : q ≠ .clutwr) (hx : x &&& q.writableMask = w) (hc : i.cls = some (.intSafe c))
    (hcore : i.coreOf s.par.useWait o = fun ret => wr (.lay l q) x (ret .unit)) (hm : s.MayRunI c) (hi : s.Issued i o) :
    Completes i s (s.putLayer l ((s.lay l).put w q)) .unit :=
  completes_layerWrite hq hx hc hm hi fun _ _ _ _ hk => by rw [hcore]; exact hk

/-- A command that reads LxCR and writes it back changed (R106). -/
theorem completes_modifyCr {f : Word → Word} (hf : f (s.lay l).cr &&& 0x13 = w) (hc : i.cls = some (.intSafe c))
    (hcore : i.coreOf s.par.useWait o = fun ret => rd (.lay l .cr) fun r => wr (.lay l .cr) (f r) (ret .unit))
    (hm : s.MayRunI c) (hi : s.Issued i o) : Completes i s (s.putLayer l { s.lay l with cr := w }) .unit :=
  completes_layerWrite (q := .cr) nofun hf hc hm hi fun _ _ _ _ hk => by rw [hcore]; exact ends_rd hi.1 hk

-- ==== the getters ====

/-- IS_LAYER_ENABLED answers the test its build compiles (R282). -/
theorem isLayerEnabled_completes (hm : s.MayRunI c) (hi : s.Issued (.isLayerEnabled l c) o) :
    Completes (.isLayerEnabled l c) s s (.word (boolWord (layerEnabledTest s.par.isEnabledMaskBug (s.lay l).cr))) :=
  completes_intSafe rfl hm hi (fun _ _ _ _ hk => .of_push (fun _ => run_ok hi.1 rfl) hk) rfl rfl rfl hi.1

/-- Settles O32: each getter is a read of its register, and IS_LAYER_ENABLED the read of a predicate. -/
theorem layerGettersComplete : Obligations.LayerGettersComplete := by
  intro l c o s hm
  refine ⟨fun hi => ?_, isLayerEnabled_completes hm, fun hi => ?_, fun hi => ?_, fun hi => ?_, fun hi => ?_, fun hi => ?_,
    fun hi => ?_, fun hi => ?_, fun hi => ?_⟩
  · exact completes_read (r := .lay l .cr) rfl rfl hm hi
  · exact completes_read (r := .lay l .pfcr) rfl rfl hm hi
  · exact completes_read (r := .lay l .ckcr) rfl rfl hm hi
  · exact completes_read (r := .lay l .cr) rfl rfl hm hi
  · exact completes_read (r := .lay l .cacr) rfl rfl hm hi
  · exact completes_read (r := .lay l .dccr) rfl rfl hm hi
  · exact completes_read (r := .lay l .bfcr) rfl rfl hm hi
  · exact completes_read (r := .lay l .cr) rfl rfl hm hi
  · exact completes_read (r := .lay l .cfbar) rfl rfl hm hi

-- ==== the flags ====

/-- A value already cut to a field is cut again by the register write. -/
theorem and_mask_twice (x m : Word) : x &&& m &&& m = x &&& m := by rw [BitVec.and_assoc, BitVec.and_self]

/-- Clearing LxCR's flag `m` keeps the other two flags (R284, R291, R309). -/
theorem clear_flag {m k : Word} (h : ~~~m &&& 0x13 = k) (r : Word) : r &&& ~~~m &&& 0x13 = r &&& k := by
  rw [BitVec.and_assoc, h]

/-- Settles O33: the flags replaced by one write, or one of them set or cleared by a read and a write. -/
theorem layerFlagCommandsComplete : Obligations.LayerFlagCommandsComplete := by
  intro l c o s hm
  refine ⟨completes_set (q := .cr) nofun (and_mask_twice _ _) rfl rfl hm, fun hi => ?_, fun hi => ?_, fun hi => ?_,
    fun hi => ?_, fun hi => ?_, fun hi => ?_⟩
  · exact completes_modifyCr (f := (· ||| crLen)) rfl rfl rfl hm hi
  · exact completes_modifyCr (f := (· &&& ~~~crLen)) (clear_flag (by decide) _) rfl rfl hm hi
  · exact completes_modifyCr (f := (· ||| crColken)) rfl rfl rfl hm hi
  · exact completes_modifyCr (f := (· &&& ~~~crColken)) (clear_flag (by decide) _) rfl rfl hm hi
  · exact completes_modifyCr (f := (· ||| crCluten)) rfl rfl rfl hm hi
  · exact completes_modifyCr (f := (· &&& ~~~crCluten)) (clear_flag (by decide) _) rfl rfl hm hi

-- ==== the values ====

/-- SET_PIXEL_FORMAT past its check writes the format's 3 bits (R286). -/
theorem setPixelFormat_completes (hm : s.MayRunI c) (hi : s.Issued (.setPixelFormat l c) o)
    (hf : s.Passes (decide (o.x ≤ 7))) :
    Completes (.setPixelFormat l c) s (s.putLayer l { s.lay l with pfcr := o.x &&& 0x7 }) .unit :=
  completes_layerWrite (q := .pfcr) nofun (and_mask_twice _ _) rfl hm hi fun _ _ _ _ hk =>
    ends_checkB hi.1 (by rw [fmtOk_eq]; exact hf) hk

/-- An alpha operand's low 8 bits, as a byte and as a mask (R148, R293). -/
theorem low8_zeroExtend (x : Word) : (low8 x).zeroExtend 32 = x &&& 0xFF := by
  apply BitVec.eq_of_toNat_eq
  rw [low8, BitVec.truncate_eq_setWidth, BitVec.toNat_setWidth, BitVec.toNat_setWidth, BitVec.toNat_and]
  have hmask : (0xFF : Word).toNat = 2 ^ 8 - 1 := rfl
  rw [hmask, Nat.and_two_pow_sub_one_eq_mod]
  omega

/-- Settles O34: each setter is one register write, SET_PIXEL_FORMAT's after its check. -/
theorem layerValueSettersComplete : Obligations.LayerValueSettersComplete := by
  intro l c o s hm
  refine ⟨setPixelFormat_completes hm, fun hi => ?_, fun hi => ?_, fun hi => ?_, fun hi => ?_, fun hi => ?_⟩
  · exact completes_set (q := .ckcr) nofun (and_mask_twice _ _) rfl rfl hm hi
  · exact completes_set (q := .cacr) nofun (by rw [low8_zeroExtend]; exact and_mask_twice _ _) rfl rfl hm hi
  · exact completes_set (q := .dccr) nofun BitVec.and_allOnes rfl rfl hm hi
  · exact completes_set (q := .bfcr) nofun (and_mask_twice _ _) rfl rfl hm hi
  · exact completes_set (q := .cfbar) nofun BitVec.and_allOnes rfl rfl hm hi

end Sys2Proof.Machine
end

section
/-! PROOFS. O56: what the four commands that write a record leave of host memory (R315, R325, R335, R393), from every cell and
with every schedule. The property a run keeps is that one byte reads as it did; an address is placed by its distance from the
start of the record, which never wraps. -/

namespace Sys2Proof.Machine

variable {P : State → Prop} {a q : Word} {b : Byte} {k : Prog} {l : Layer}

/-- The byte at `a` reads `b`. -/
def ByteIs (a : Word) (b : Byte) (s : State) : Prop := s.mem.byteAt a = b

theorem byteIs_stable : Stable (ByteIs a b) where
  sched _ _ _ h := h
  raster s x _ h := by simpa [ByteIs] using h
  suspend s c h := by simpa [ByteIs] using h
  finish s w v h := by simpa [ByteIs] using h
  raise s c e i h := by simpa [ByteIs] using h

theorem byteIs_lockStable : LockStable (ByteIs a b) := ⟨fun _ _ h => h, fun _ _ h => h⟩

theorem byteIs_regStable : RegStable (ByteIs a b) where
  afterRead s r h := by simpa [ByteIs] using h
  regWrite s r v h := by simpa [ByteIs] using h

-- ==== one field, one byte ====

/-- An address before or after a field of a record is none of the field's bytes. -/
theorem inBytes_field {off n : Nat} (hend : off + n ≤ 2 ^ 32)
    (h : (a - q).toNat < off ∨ off + n ≤ (a - q).toNat) : inBytes (q + BitVec.ofNat 32 off) n a = false := by
  have ha := (a - q).isLt
  rw [inBytes, decide_eq_false_iff_not, ← BitVec.sub_sub, BitVec.toNat_sub, BitVec.toNat_ofNat]
  omega

theorem memWr_keepsByte {v : Word} {off n : Nat} (hend : off + n ≤ 2 ^ 32)
    (h : (a - q).toNat < off ∨ off + n ≤ (a - q).toNat) (hk : k.Keeps (ByteIs a b)) :
    (memWr q off n v k).Keeps (ByteIs a b) :=
  keeps_memWr (fun _ hs => (Mem.byteAt_writeLe_other (inBytes_field hend h)).trans hs) hk

theorem byteWr_keepsByte {a' : Word} {d : Byte} (h : a ≠ a') (hk : k.Keeps (ByteIs a b)) :
    (byteWr a' d k).Keeps (ByteIs a b) :=
  keeps_act (fun s hs => (Mem.byteAt_set_other s.mem d h).trans hs) hk

-- ==== the records ====

/-- A window record `w` bytes into the record at `q` (R315). -/
theorem getWindowTo_keepsByte {w : Nat} (hw : w ≤ 16) (h : (a - q).toNat < w ∨ w + 8 ≤ (a - q).toNat)
    (hk : k.Keeps (ByteIs a b)) : (getWindowTo l q w k).Keeps (ByteIs a b) :=
  byteIs_regStable.rd fun _ => byteIs_regStable.rd fun _ => keeps_look fun _ => keeps_look fun _ => keeps_crashCheck <|
    memWr_keepsByte (by omega) (by omega) <| memWr_keepsByte (by omega) (by omega) <|
    memWr_keepsByte (by omega) (by omega) <| memWr_keepsByte (by omega) (by omega) hk

/-- A frame record at `q` (R325). -/
theorem getFrameTo_keepsByte (h : 16 ≤ (a - q).toNat) (hk : k.Keeps (ByteIs a b)) :
    (getFrameTo l q k).Keeps (ByteIs a b) :=
  byteIs_regStable.rd fun _ => byteIs_regStable.rd fun _ => byteIs_regStable.rd fun _ => byteIs_regStable.rd fun _ =>
    keeps_crashCheck <| memWr_keepsByte (by omega) (by omega) <| memWr_keepsByte (by omega) (by omega) <|
    memWr_keepsByte (by omega) (by omega) <| memWr_keepsByte (by omega) (by omega) <|
    memWr_keepsByte (by omega) (by omega) hk

theorem getWindow_keepsByte (h : 8 ≤ (a - q).toNat) : (getWindowCore l q).Keeps (ByteIs a b) := fun _ hk =>
  keeps_checkB <| getWindowTo_keepsByte (by omega) (by omega) (hk _)

theorem getFrame_keepsByte (h : 16 ≤ (a - q).toNat) : (getFrameCore l q).Keeps (ByteIs a b) := fun _ hk =>
  keeps_checkB <| getFrameTo_keepsByte h (hk _)

/-- GET_LAYER's fields end at byte 33 and begin again at byte 34 (R335): its padding byte is no field's. -/
theorem getLayer_keepsByte (h : 48 ≤ (a - q).toNat ∨ (a - q).toNat = 33) : (getLayerCore l q).Keeps (ByteIs a b) :=
  fun _ hk =>
    keeps_checkB <| getFrameTo_keepsByte (by omega) <| getWindowTo_keepsByte (by omega) (by omega) <|
    byteIs_regStable.rd fun _ => memWr_keepsByte (by omega) (by omega) <|
    byteIs_regStable.rd fun _ => memWr_keepsByte (by omega) (by omega) <|
    byteIs_regStable.rd fun _ => memWr_keepsByte (by omega) (by omega) <|
    memWr_keepsByte (by omega) (by omega) <| memWr_keepsByte (by omega) (by omega) <|
    byteIs_regStable.rd fun _ => memWr_keepsByte (by omega) (by omega) <|
    byteIs_regStable.rd fun _ => memWr_keepsByte (by omega) (by omega) (hk _)

-- ==== the chunk ====

/-- What follows the receipt of `n` bytes is given `n` more than there were, so it need keep `P` for that many only (R381). -/
theorem keeps_spiReceive {k : List Byte → Prog} (hrx : ∀ s, P s → P s.receive) (n : Nat) (acc : List Byte)
    (hk : ∀ d, d.length = acc.length + n → (k d).Keeps P) : (spiReceive n acc k).Keeps P := by
  induction n generalizing acc with
  | zero => exact keeps_jump (hk _ List.length_reverse)
  | succ n ih =>
    refine ⟨hrx, fun r => keeps_jump (ih _ fun d hd => hk d ?_)⟩
    rw [hd, List.length_cons]
    omega

/-- The store loop writes as many bytes as it is given, from `q + j` upward (R103, R393). -/
theorem storeChunk_keepsByte (hk : k.Keeps (ByteIs a b)) (d : List Byte) (j : Nat)
    (h : j + d.length ≤ (a - q).toNat) : (storeChunk q j d k).Keeps (ByteIs a b) := by
  induction d generalizing j with
  | nil => exact keeps_jump hk
  | cons x d ih =>
    rw [List.length_cons] at h
    have hne : a ≠ q + BitVec.ofNat 32 j := by
      rintro rfl
      rw [BitVec.add_comm, BitVec.add_sub_cancel, BitVec.toNat_ofNat] at h
      omega
    exact byteWr_keepsByte hne <| keeps_jump <| ih (j + 1) (by omega)

theorem pnlReadChunk_keepsByte {n : Word} (h : n.toNat ≤ (a - q).toNat) : (pnlReadChunkCore q n).Keeps (ByteIs a b) :=
  fun _ hk =>
    keeps_check <| keeps_checkB <| keeps_checkB <| keeps_act (fun _ hs => hs) <|
    keeps_spiReceive (fun _ hs => hs) _ _ fun d hd => keeps_crashCheck <|
    storeChunk_keepsByte (hk _) d 0 (by rw [hd]; simpa using h)

-- ==== the commands ====

variable {s t : State} {i : Instr} {cl : CmdClass} {c : Cell}

/-- A command whose core, with its own cell's operands, keeps `P` keeps `P`, whatever the schedule and wherever it goes on
from. -/
theorem command_keeps_ops (hS : Stable P) (hL : LockStable P) {core : Operands → Core} (hc : s.curCell = some c)
    (hcore : (core c.ops).Keeps P) (hs : P s) (h : command i cl core s = .next t) : P t := by
  have hops : (s.cellOf (encode i)).ops = c.ops := by rw [State.cellOf, hc]
  refine run_keeps hS (after_keeps (keeps_dispatch (fun _ => hL) ?_) _) _ _ _ hs h
  rw [hops]
  exact hcore

/-- A command whose core keeps the byte at `a`, whatever it is, leaves it. -/
theorem exec_keepsByte (hcls : i.cls = some cl) (hc : s.curCell = some c)
    (hcore : (i.coreOf s.par.useWait c.ops).Keeps (ByteIs a (s.mem.byteAt a))) (h : exec i s = .next t) :
    t.mem.byteAt a = s.mem.byteAt a :=
  command_keeps_ops (P := ByteIs a (s.mem.byteAt a)) byteIs_stable byteIs_lockStable hc hcore rfl
    ((exec_eq_command s hcls).symm.trans h)

/-- An address outside `n` bytes, by its distance from the first. -/
theorem inBytes_eq_false_iff {n : Nat} : inBytes q n a = false ↔ n ≤ (a - q).toNat := by
  rw [inBytes, decide_eq_false_iff_not, Nat.not_lt]

/-- Settles O56: each command by its core, the byte placed by its distance from the record. -/
theorem recordFrame : Obligations.RecordFrame := by
  intro l f s t c hc
  refine ⟨fun h a ha => exec_keepsByte rfl hc (getWindow_keepsByte (inBytes_eq_false_iff.1 ha)) h,
    fun h a ha => exec_keepsByte rfl hc (getFrame_keepsByte (inBytes_eq_false_iff.1 ha)) h,
    fun h a ha => exec_keepsByte rfl hc (getLayer_keepsByte (ha.imp inBytes_eq_false_iff.1 ?_)) h,
    fun h a ha => exec_keepsByte rfl hc (pnlReadChunk_keepsByte (inBytes_eq_false_iff.1 ha)) h⟩
  rintro rfl
  rw [BitVec.add_comm, BitVec.add_sub_cancel]
  rfl

end Sys2Proof.Machine
end

section
/-! PROOFS. O28, O29, O40: the helper commands (R360 to R366). A colour is moved channel by channel, so the rules speak of one
field of a word: moved left, moved right, and read out of a masked word. -/

namespace Sys2Proof.Machine

variable {c v x y m : Word} {lo n d k j : Nat}

-- ==== one field ====

theorem mask_ushiftRight (hn : n ≤ 32) : Config.mask n >>> j = Config.mask (n - j) := by
  refine BitVec.eq_of_getLsbD_eq fun i hi => ?_
  simp only [Config.mask, BitVec.getLsbD_ushiftRight, BitVec.getLsbD_ofNat, Nat.testBit_two_pow_sub_one,
    ← Bool.decide_and]
  exact decide_eq_decide.2 (by omega)

/-- A field moved left to `k` is its bits masked where they come to stand. -/
theorem field_shiftLeft (h : k ≤ lo) : field c lo n <<< k = (c >>> (lo - k)) &&& (Config.mask n <<< k) := by
  obtain ⟨d, rfl⟩ := Nat.exists_eq_add_of_le' h
  rw [field, BitVec.shiftLeft_and_distrib, BitVec.shiftRight_add, BitVec.shiftLeft_ushiftRight, BitVec.and_assoc,
    ← BitVec.shiftLeft_and_distrib, BitVec.allOnes_and, Nat.add_sub_cancel]

/-- The high bits of a field are a field. -/
theorem field_shiftRight (hn : n ≤ 32) : field c lo n >>> j = field c (lo + j) (n - j) := by
  rw [field, field, BitVec.ushiftRight_and_distrib, BitVec.shiftRight_add, mask_ushiftRight hn]

theorem field_or : field (x ||| y) lo n = field x lo n ||| field y lo n := by
  rw [field, BitVec.ushiftRight_or_distrib, BitVec.and_or_distrib_right]
  rfl

/-- A field of a word moved and masked: what the mask's own field lets through. -/
theorem field_ushiftRight_and : field (c >>> d &&& m) lo n = c >>> (d + lo) &&& field m lo n := by
  rw [field, BitVec.ushiftRight_and_distrib, BitVec.shiftRight_add, BitVec.and_assoc]
  rfl

-- ==== the pixel of a direct format ====

/-- An 8-bit channel cut to its top `n` bits (R362). -/
theorem tN_field (hn : n ≤ 8) : tN n (field c lo 8) = field c (lo + (8 - n)) n := by
  rw [tN, field_shiftRight (by decide), Nat.sub_sub_self hn]

/-- The RGB-565 pixel (R363). -/
theorem fromArgb_rgb565 :
    fromArgb c 2 = ((c >>> 8) &&& 0xF800#32) ||| ((c >>> 5) &&& 0x07E0#32) ||| ((c >>> 3) &&& 0x001F#32) := by
  change (tN 5 _ <<< 11) ||| (tN 6 _ <<< 5) ||| tN 5 _ = _
  simp only [tN_field, field_shiftLeft, Nat.reduceLeDiff, Nat.reduceSub, Nat.reduceAdd]
  rfl

/-- The ARGB-1555 pixel (R363). -/
theorem fromArgb_argb1555 :
    fromArgb c 3
      = ((c >>> 16) &&& 0x8000#32) ||| ((c >>> 9) &&& 0x7C00#32) ||| ((c >>> 6) &&& 0x03E0#32) ||| ((c >>> 3) &&& 0x001F#32) := by
  change (tN 1 _ <<< 15) ||| (tN 5 _ <<< 10) ||| (tN 5 _ <<< 5) ||| tN 5 _ = _
  simp only [tN_field, field_shiftLeft, Nat.reduceLeDiff, Nat.reduceSub, Nat.reduceAdd]
  rfl

/-- The ARGB-4444 pixel (R363). -/
theorem fromArgb_argb4444 :
    fromArgb c 4
      = ((c >>> 16) &&& 0xF000#32) ||| ((c >>> 12) &&& 0x0F00#32) ||| ((c >>> 8) &&& 0x00F0#32) ||| ((c >>> 4) &&& 0x000F#32) := by
  change (tN 4 _ <<< 12) ||| (tN 4 _ <<< 8) ||| (tN 4 _ <<< 4) ||| tN 4 _ = _
  simp only [tN_field, field_shiftLeft, Nat.reduceLeDiff, Nat.reduceSub, Nat.reduceAdd]
  rfl

/-- Settles O29: each channel of the pixel is its top bits, moved. -/
theorem pixelLayouts : Obligations.PixelLayouts :=
  fun _ => ⟨fromArgb_rgb565, fromArgb_argb1555, fromArgb_argb4444⟩

-- ==== a channel repeated ====

/-- R362's expansion of an `n`-bit channel, for 4 to 8 bits: the channel on top, its own high bits below. -/
def expandChannel (n : Nat) (v : Word) : Word := (v <<< (8 - n)) ||| (v >>> (2 * n - 8))

theorem x4_eq_expandChannel : x4 v = expandChannel 4 v := by rw [x4, expandChannel, BitVec.ushiftRight_zero]
theorem x5_eq_expandChannel : x5 v = expandChannel 5 v := rfl
theorem x6_eq_expandChannel : x6 v = expandChannel 6 v := rfl

/-- A channel cut out of a colour, expanded and put back at `k` keeps its high `n` bits, and below them stand the same bits
`n` places down (R366). -/
theorem expandChannel_field_shiftLeft (hn : 4 ≤ n) (hn' : n ≤ 8) (h : lo = k + (8 - n)) :
    expandChannel n (field c lo n) <<< k = (c &&& (Config.mask n <<< lo)) ||| ((c >>> n) &&& (Config.mask (8 - n) <<< k)) := by
  have hhigh : field c lo n <<< (8 - n + k) = c &&& (Config.mask n <<< lo) := by
    rw [show 8 - n + k = lo by omega, field_shiftLeft (Nat.le_refl _), Nat.sub_self, BitVec.ushiftRight_zero]
  have hlow : field c lo n >>> (2 * n - 8) <<< k = (c >>> n) &&& (Config.mask (8 - n) <<< k) := by
    rw [field_shiftRight (by omega), field_shiftLeft (by omega), show lo + (2 * n - 8) - k = n by omega,
      show n - (2 * n - 8) = 8 - n by omega]
  rw [expandChannel, BitVec.shiftLeft_or_distrib, ← BitVec.shiftLeft_add, hhigh, hlow]

/-- The lowest channel is not moved. -/
theorem expandChannel_field (hn : 4 ≤ n) (hn' : n ≤ 8) (h : lo = 8 - n) :
    expandChannel n (field c lo n) = (c &&& (Config.mask n <<< lo)) ||| ((c >>> n) &&& Config.mask (8 - n)) := by
  simpa only [BitVec.shiftLeft_zero] using expandChannel_field_shiftLeft (c := c) (k := 0) hn hn' (by omega)

/-- The alpha bit of ARGB-1555, expanded and put at 24 (R362). -/
theorem x1_field_shiftLeft : x1 (field c lo 1) <<< 24 = if c.getLsbD lo then 0xFF000000#32 else 0 := by
  have hbit : field c lo 1 = BitVec.setWidth 32 (BitVec.ofBool (c.getLsbD lo)) := by
    rw [field, show Config.mask 1 = 1#32 by decide, BitVec.and_one_eq_setWidth_ofBool_getLsbD, BitVec.getLsbD_ushiftRight,
      Nat.add_zero]
  rw [x1, hbit]
  cases c.getLsbD lo <;> rfl

-- ==== there and back ====

/-- The alpha is replaced, the colour channels kept (R366). -/
theorem roundTrip_rgb888 : toArgb (fromArgb c 1) 1 = 0xFF000000#32 ||| (c &&& 0x00FFFFFF#32) := by
  change 0xFF000000#32 ||| (c &&& 0x00FFFFFF#32 &&& 0x00FFFFFF#32) = _
  rw [and_mask_twice]

/-- The channels read back out of an RGB-565 pixel. -/
theorem field_fromArgb_rgb565 :
    field (fromArgb c 2) 11 5 = field c 19 5 ∧ field (fromArgb c 2) 5 6 = field c 10 6 ∧ field (fromArgb c 2) 0 5 = field c 3 5 := by
  simp only [fromArgb_rgb565, field_or, field_ushiftRight_and]
  simp [field, Config.mask]

/-- The channels read back out of an ARGB-1555 pixel. -/
theorem field_fromArgb_argb1555 :
    field (fromArgb c 3) 15 1 = field c 31 1 ∧ field (fromArgb c 3) 10 5 = field c 19 5
      ∧ field (fromArgb c 3) 5 5 = field c 11 5 ∧ field (fromArgb c 3) 0 5 = field c 3 5 := by
  simp only [fromArgb_argb1555, field_or, field_ushiftRight_and]
  simp [field, Config.mask]

/-- The channels read back out of an ARGB-4444 pixel. -/
theorem field_fromArgb_argb4444 :
    field (fromArgb c 4) 12 4 = field c 28 4 ∧ field (fromArgb c 4) 8 4 = field c 20 4
      ∧ field (fromArgb c 4) 4 4 = field c 12 4 ∧ field (fromArgb c 4) 0 4 = field c 4 4 := by
  simp only [fromArgb_argb4444, field_or, field_ushiftRight_and]
  simp [field, Config.mask]

/-- Alpha 0xFF, and each channel's high bits with the same bits below them (R366). -/
theorem roundTrip_rgb565 :
    toArgb (fromArgb c 2) 2
      = 0xFF000000#32 ||| (c &&& 0x00F8FCF8#32) ||| ((c >>> 5) &&& 0x00070007#32) ||| ((c >>> 6) &&& 0x00000300#32) := by
  obtain ⟨hr, hg, hb⟩ := field_fromArgb_rgb565 (c := c)
  have hhigh : 0x00F8FCF8#32 = Config.mask 5 <<< 19 ||| Config.mask 6 <<< 10 ||| Config.mask 5 <<< 3 := by decide
  have hlow : 0x00070007#32 = Config.mask 3 <<< 16 ||| Config.mask 3 := by decide
  have hlow6 : 0x00000300#32 = Config.mask 2 <<< 8 := by decide
  have halpha : 0xFF000000#32 = 0xFF#32 <<< 24 := by decide
  change argb 0xFF (x5 (field _ 11 5)) (x6 (field _ 5 6)) (x5 (field _ 0 5)) = _
  rw [hr, hg, hb, argb, hhigh, hlow, hlow6, halpha]
  simp only [x5_eq_expandChannel, x6_eq_expandChannel, expandChannel_field_shiftLeft, expandChannel_field,
    Nat.reduceLeDiff, Nat.reduceSub, Nat.reduceAdd, BitVec.and_or_distrib_left]
  ac_rfl

/-- The alpha bit repeated, and each colour channel's high bits with the same bits below them (R366). -/
theorem roundTrip_argb1555 :
    toArgb (fromArgb c 3) 3
      = (if c.getLsbD 31 then 0xFF000000#32 else 0) ||| (c &&& 0x00F8F8F8#32) ||| ((c >>> 5) &&& 0x00070707#32) := by
  obtain ⟨ha, hr, hg, hb⟩ := field_fromArgb_argb1555 (c := c)
  have hhigh : 0x00F8F8F8#32 = Config.mask 5 <<< 19 ||| Config.mask 5 <<< 11 ||| Config.mask 5 <<< 3 := by decide
  have hlow : 0x00070707#32 = Config.mask 3 <<< 16 ||| Config.mask 3 <<< 8 ||| Config.mask 3 := by decide
  change argb (x1 (field _ 15 1)) (x5 (field _ 10 5)) (x5 (field _ 5 5)) (x5 (field _ 0 5)) = _
  rw [ha, hr, hg, hb, argb, x1_field_shiftLeft, hhigh, hlow]
  generalize (if c.getLsbD 31 then 0xFF000000#32 else 0) = a
  simp only [x5_eq_expandChannel, expandChannel_field_shiftLeft, expandChannel_field, Nat.reduceLeDiff, Nat.reduceSub,
    Nat.reduceAdd, BitVec.and_or_distrib_left]
  ac_rfl

/-- Each channel's high half, and the same half below it (R366). -/
theorem roundTrip_argb4444 :
    toArgb (fromArgb c 4) 4 = (c &&& 0xF0F0F0F0#32) ||| ((c >>> 4) &&& 0x0F0F0F0F#32) := by
  obtain ⟨ha, hr, hg, hb⟩ := field_fromArgb_argb4444 (c := c)
  have hhigh : 0xF0F0F0F0#32
      = Config.mask 4 <<< 28 ||| Config.mask 4 <<< 20 ||| Config.mask 4 <<< 12 ||| Config.mask 4 <<< 4 := by decide
  have hlow : 0x0F0F0F0F#32 = Config.mask 4 <<< 24 ||| Config.mask 4 <<< 16 ||| Config.mask 4 <<< 8 ||| Config.mask 4 := by
    decide
  change argb (x4 (field _ 12 4)) (x4 (field _ 8 4)) (x4 (field _ 4 4)) (x4 (field _ 0 4)) = _
  rw [ha, hr, hg, hb, argb, hhigh, hlow]
  simp only [x4_eq_expandChannel, expandChannel_field_shiftLeft, expandChannel_field, Nat.reduceLeDiff, Nat.reduceSub,
    Nat.reduceAdd, BitVec.and_or_distrib_left]
  ac_rfl

/-- Settles O28: the channels read back out of the pixel, each expanded in its place. -/
theorem colourRoundTrip : Obligations.ColourRoundTrip :=
  fun _ => ⟨rfl, roundTrip_rgb888, roundTrip_rgb565, roundTrip_argb1555, roundTrip_argb4444⟩

-- ==== the commands ====

/-- The table is read at the id modulo 8 (R360). -/
theorem bpp_eq_table (fmt : Word) : bpp fmt = [32, 24, 16, 16, 16, 8, 8, 16].getD (fmt.toNat % 8) 0 := by
  have hcut : bpp fmt = bpp (fmt &&& 7) := by simp only [bpp, and_mask_twice]
  have hid : fmt &&& 7 = BitVec.ofNat 32 (fmt.toNat % 8) := by
    apply BitVec.eq_of_toNat_eq
    rw [BitVec.toNat_and, BitVec.toNat_ofNat, show (7 : Word).toNat = 2 ^ 3 - 1 from rfl, Nat.and_two_pow_sub_one_eq_mod]
    omega
  have htable : ∀ r < 8, bpp (BitVec.ofNat 32 r) = [32, 24, 16, 16, 16, 8, 8, 16].getD r 0 := by decide
  rw [hcut, hid, htable _ (Nat.mod_lt _ (by decide))]

variable {s : State} {i : Instr} {o : Operands}

/-- A helper whose format passes its check answers and leaves the state (R360, R364, R365). -/
theorem helper_completes {fmt : Word} {r : ResultVal} (hcls : i.cls = some .pure)
    (hcore : i.coreOf s.par.useWait o .done = checkB (fmtOk fmt) .range (.done r)) (hi : s.Issued i o)
    (hf : s.Passes (decide (fmt ≤ 7))) : Completes i s s r := by
  have hw : i.wellFormed true s.par.useMutex = true :=
    wellFormed_of_cls _ hcls (by rintro rfl; cases hcls) (by rintro rfl; cases hcls)
  have hrun : (checkB (fmtOk fmt) .range (.done r)).Ends s (Returned s r) :=
    ends_checkB hi.1 (by rw [fmtOk_eq]; exact hf) done_returns
  obtain ⟨c', hword, hret⟩ := hrun ⟨encode i, o, 1, [0], none⟩
  rw [Completes, exec_eq_command s hcls, command_pure hi hw, hcore, hret, hword]

/-- Settles O40: each helper is its format check and its answer. -/
theorem helpersComplete : Obligations.HelpersComplete := by
  intro o s
  refine ⟨fun hi hf => ?_, fun hi hf => ?_, fun hi hf => ?_⟩
  · rw [← bpp_eq_table]
    exact helper_completes rfl rfl hi hf
  · exact helper_completes rfl rfl hi hf
  · exact helper_completes rfl rfl hi hf

end Sys2Proof.Machine
end

section
/-! PROOFS. O49: the panel's life cycle and select bracket (R382 to R384, R387, R388). Each core is a state check and a few
writes, run by the rules above. -/

namespace Sys2Proof.Machine

variable {s t : State} {E : Cell → Out → Prop} {k : Prog} {v : ResultVal} {i : Instr} {o : Operands}

/-- A command that every context may issue completes as its core returns (R154). -/
theorem completes_of_initCore (hc : i.cls = some .init) (hi : s.Issued i o)
    (hr : (i.coreOf s.par.useWait o .done).Ends s (Returned t v)) : Completes i s t v := by
  have hw : i.wellFormed true s.par.useMutex = true :=
    wellFormed_of_cls _ hc (by rintro rfl; cases hc) (by rintro rfl; cases hc)
  obtain ⟨c', hcw, hret⟩ := hr ⟨encode i, o, 1, [0], none⟩
  rw [Completes, exec_eq_command s hc, command_init hi hw, hret, hcw]

theorem ends_shim (h : s.sched = []) (hk : k.Ends s E) : (shim k).Ends s E := ends_act h hk

theorem pnlObjectInit_completes (hi : s.Issued .pnlObjectInit o) (hp : s.Passes (s.pnlState == .absent)) :
    Completes .pnlObjectInit s { s with pnlCfg := none, pnlScratch := 0, pnlOwner := none, pnlState := .stop } .unit :=
  completes_of_initCore rfl hi <| ends_check hi.1 hp <| ends_act hi.1 <| ends_act hi.1 <| ends_act hi.1 <| ends_act hi.1
    done_returns

/-- PNL_START copies the two words of the configuration (R383). -/
theorem pnlStart_completes (hx : s.Passes (s.ctx == .thread)) (hi : s.Issued .pnlStart o)
    (hp : s.Passes (s.pnlState == .stop)) (h0 : o.x ≠ 0) (ha : aligned4 o.x = true) :
    Completes .pnlStart s
      { s with pnlCfg := some ⟨s.mem.readLe o.x 4, s.mem.readLe (o.x + 4) 4⟩, pnlState := .ready } .unit := by
  have hn : (o.x != 0) = true := bne_iff_ne.2 h0
  refine completes_of_panelCore rfl rfl hx hi <| ends_check hi.1 hp <| ends_checkB hi.1 (.inr hn) <|
    ends_crashCheck hi.1 hn <| ends_memRd hi.1 ha <| ends_memRd hi.1 ha <| ends_act hi.1 <| ends_act hi.1 ?_
  simpa using done_returns

theorem pnlStop_completes (hx : s.Passes (s.ctx == .thread)) (hi : s.Issued .pnlStop o)
    (hp : s.Passes (s.pnlState == .ready)) : Completes .pnlStop s { s with pnlState := .stop } .unit :=
  completes_of_panelCore rfl rfl hx hi <| ends_check hi.1 hp <| ends_act hi.1 done_returns

theorem pnlSelect_completes (hx : s.Passes (s.ctx == .thread)) (hi : s.Issued .pnlSelect o)
    (hp : s.Passes (s.pnlState == .ready)) :
    Completes .pnlSelect s { s with cs := .asserted, pnlState := .active } .unit :=
  completes_of_panelCore rfl rfl hx hi <| ends_check hi.1 hp <| ends_shim hi.1 <| ends_act hi.1 <| ends_act hi.1 done_returns

theorem pnlUnselect_completes (hx : s.Passes (s.ctx == .thread)) (hi : s.Issued .pnlUnselect o)
    (hp : s.Passes (s.pnlState == .active)) :
    Completes .pnlUnselect s { s with cs := .deasserted, pnlState := .ready } .unit :=
  completes_of_panelCore rfl rfl hx hi <| ends_check hi.1 hp <| ends_shim hi.1 <| ends_act hi.1 <| ends_act hi.1 done_returns

/-- Settles O49: the five commands, each by its own run. -/
theorem panelLifecycleCompletes : Obligations.PanelLifecycleCompletes :=
  fun _ _ => ⟨pnlObjectInit_completes, pnlStart_completes, pnlStop_completes, pnlSelect_completes, pnlUnselect_completes⟩

end Sys2Proof.Machine
end

section
/-! PROOFS. What the commands of each half of the block write (R395). Every property of the state that the LTDC's writes keep, an
LTDC command or a handler keeps, from every cell and with every schedule; and every property that the panel framer's writes
keep, a panel command keeps. -/

namespace Sys2Proof.Machine

variable {P : State → Prop} {k : Prog}

-- ==== the LTDC ====

/-- What the pseudocode of the LTDC's commands and handlers writes keeps `P`: registers, the driver's own cells, the vectors'
enables, messages, the history, the running activation, host memory (R32 to R36, R200 to R211, R460, R461). -/
structure LtdcStable (P : State → Prop) : Prop extends Stable P, LockStable P, PollStable P, RegStable P where
  peripheralReset : ∀ s, P s → P s.peripheralReset
  drvState : ∀ s d, P s → P { s with drvState := d }
  activeWindow : ∀ s w, P s → P { s with activeWindow := w }
  waiter : ∀ s a, P s → P { s with waiter := a }
  cfg : ∀ s c, P s → P { s with cfg := c }
  ltdcOwner : ∀ s a, P s → P { s with ltdcOwner := a }
  nvicEv : ∀ s b, P s → P { s with nvicEv := b }
  nvicEr : ∀ s b, P s → P { s with nvicEr := b }
  setWake : ∀ s a m, P s → P (s.setWake a m)
  addEvent : ∀ s e, P s → P (s.addEvent e)
  mapTop : ∀ s f, P s → P (s.mapTop f)
  mem : ∀ s m, P s → P { s with mem := m }

namespace LtdcStable

-- ==== life cycle, reload, mutex ====

theorem initCore (h : LtdcStable P) : Machine.initCore.Keeps P := fun _ hk =>
  keeps_check <| keeps_act h.peripheralReset <| keeps_act (fun s => h.activeWindow s _) <| keeps_act (fun s => h.waiter s _) <|
    keeps_act (fun s => h.ltdcOwner s _) <| keeps_act (fun s => h.cfg s _) <| keeps_act (fun s => h.drvState s _) (hk _)

theorem programTimings (h : LtdcStable P) {c : ConfigD} (hk : k.Keeps P) : (programTimings c k).Keeps P :=
  keeps_checkB <| keeps_checkB <| h.wr <|
    keeps_checkB <| keeps_checkB <| keeps_checkB <| keeps_checkB <| h.wr <|
    keeps_checkB <| keeps_checkB <| keeps_checkB <| keeps_checkB <| h.wr <|
    keeps_checkB <| keeps_checkB <| keeps_checkB <| keeps_checkB <| h.wr <| keeps_act (fun s => h.activeWindow s _) hk

theorem commitNow (h : LtdcStable P) (hk : k.Keeps P) : (internalCommit k).Keeps P := h.internalCommit h.toPollStable hk

theorem startTail (h : LtdcStable P) {c : ConfigD} (hk : k.Keeps P) : (startTail c k).Keeps P :=
  keeps_act (fun s => h.nvicEv s _) <| keeps_act (fun s => h.nvicEr s _) <| h.wr <| h.commitNow <|
    h.rd fun _ => h.wr <| h.commitNow <| keeps_act (fun s => h.drvState s _) hk

theorem startCore (h : LtdcStable P) {p : Word} : (startCore p).Keeps P := fun _ hk =>
  keeps_check <| keeps_checkB <| keeps_readConfig fun _ => keeps_act (fun s => h.cfg s _) <|
    h.rd fun _ => h.wr <| h.wr <| h.commitNow <| h.programTimings <| h.rd fun _ => h.wr <| h.wr <|
    h.setLayerTo <| h.setLayerTo <| h.startTail (hk _)

theorem stopCore (h : LtdcStable P) : Machine.stopCore.Keeps P := fun _ hk =>
  keeps_check <| h.rd fun _ => h.wr <| h.wr <| h.commitNow <| keeps_act (fun s => h.drvState s _) (hk _)

theorem startReloadCore (h : LtdcStable P) {x : Word} : (startReloadCore x).Keeps P := fun _ hk =>
  keeps_check <| keeps_act (fun s => h.drvState s _) <| h.wr (hk _)

theorem polledWait (h : LtdcStable P) {b : Word} : (polledWait b).Keeps P := fun _ hk =>
  h.wr ⟨h.toPollStable, keeps_act (fun s => h.drvState s _) (hk _)⟩

theorem sleepingWait (h : LtdcStable P) : Machine.sleepingWait.Keeps P := fun _ hk =>
  h.wr <| keeps_act (fun s => h.waiter s _) <| keeps_sleep h.toPollStable <| keeps_act (fun s => h.setWake s _ _) (hk _)

theorem reloadWaitCore (h : LtdcStable P) {w : Bool} {x : Word} : (reloadWaitCore w x).Keeps P := by
  intro ret hk
  refine keeps_check <| keeps_check <| keeps_act (fun s => h.drvState s _) ?_
  split
  · split
    · exact h.polledWait _ fun _ => keeps_jump (hk _)
    · exact keeps_jump (h.sleepingWait _ hk)
  · exact h.polledWait _ hk

theorem acquireBusCore (h : LtdcStable P) : Machine.acquireBusCore.Keeps P := fun _ hk =>
  keeps_check <| keeps_holdUntil (fun s => h.ltdcOwner s _) (hk _)

theorem releaseBusCore (h : LtdcStable P) : Machine.releaseBusCore.Keeps P := fun _ hk =>
  keeps_check <| keeps_check <| keeps_act (fun s => h.ltdcOwner s _) (hk _)

-- ==== the records written ====

theorem memWr (h : LtdcStable P) {base v : Word} {off n : Nat} (hk : k.Keeps P) : (memWr base off n v k).Keeps P :=
  keeps_memWr (fun s => h.mem s _) hk

theorem getWindowTo (h : LtdcStable P) {l : Layer} {q : Word} {o : Nat} (hk : k.Keeps P) : (getWindowTo l q o k).Keeps P :=
  h.rd fun _ => h.rd fun _ => keeps_look fun _ => keeps_look fun _ => keeps_crashCheck <|
    h.memWr <| h.memWr <| h.memWr <| h.memWr hk

theorem getFrameTo (h : LtdcStable P) {l : Layer} {q : Word} (hk : k.Keeps P) : (getFrameTo l q k).Keeps P :=
  h.rd fun _ => h.rd fun _ => h.rd fun _ => h.rd fun _ => keeps_crashCheck <|
    h.memWr <| h.memWr <| h.memWr <| h.memWr <| h.memWr hk

theorem getLayerCore (h : LtdcStable P) {l : Layer} {q : Word} : (getLayerCore l q).Keeps P := fun _ hk =>
  keeps_checkB <| h.getFrameTo <| h.getWindowTo <| h.rd fun _ => h.memWr <| h.rd fun _ => h.memWr <| h.rd fun _ => h.memWr <|
    h.memWr <| h.memWr <| h.rd fun _ => h.memWr <| h.rd fun _ => h.memWr (hk _)

-- ==== the handlers ====

theorem callback (h : LtdcStable P) {kind : CbKind} {cb : Word} (hk : k.Keeps P) : (callback kind cb k).Keeps P := by
  refine keeps_act (fun s => h.addEvent s _) ⟨fun s hs => ?_, fun _ => hk⟩
  show Micro.Keeps P (if _ then _ else _)
  split
  · exact hs
  · exact h.mapTop s _ hs

theorem acknowledge (h : LtdcStable P) {flag : Word} (hk : k.Keeps P) : (acknowledge flag k).Keeps P := h.rd fun _ => h.wr hk

theorem requiredCallback (h : LtdcStable P) {off : Nat} {kind : CbKind} {flag : Word} (hk : k.Keeps P) :
    (requiredCallback off kind flag k).Keeps P :=
  keeps_cfgRd fun _ => keeps_checkB <| keeps_crashCheck <| h.callback <| h.acknowledge hk

theorem sendWake (h : LtdcStable P) (s : State) (hs : P s) : P s.sendWake := by
  unfold State.sendWake
  split
  · exact h.setWake s _ _ hs
  · exact hs

theorem logWake (h : LtdcStable P) (s : State) (hs : P s) : P s.logWake := by
  unfold State.logWake
  split
  · exact h.addEvent s _ hs
  · exact hs

theorem wakeParked (h : LtdcStable P) (hk : k.Keeps P) : (wakeParked k).Keeps P := by
  refine keeps_look fun b => ?_
  split
  · exact keeps_jump hk
  · exact keeps_act h.sendWake <| keeps_act h.logWake <| keeps_act (fun s => h.waiter s _) hk

theorem completeReload (h : LtdcStable P) (hk : k.Keeps P) : (completeReload k).Keeps P :=
  keeps_act (fun s => h.mapTop s _) <| keeps_check <| h.wakeParked <| keeps_act (fun s => h.drvState s _) <|
    keeps_act (fun s => h.mapTop s _) <| h.acknowledge hk

theorem reloadDone (h : LtdcStable P) (hk : k.Keeps P) : (reloadDone k).Keeps P := by
  refine keeps_cfgRd fun cb => ?_
  split
  · exact keeps_jump (h.completeReload hk)
  · exact h.callback (h.completeReload hk)

/-- A branch of a handler whose callback must not be null. -/
theorem requiredBranch (h : LtdcStable P) {sample flag flag' : Word} {off : Nat} {kind : CbKind} (hk : k.Keeps P) :
    (whenFlag sample flag requiredSize (Machine.requiredCallback off kind flag') k).Keeps P :=
  keeps_whenFlag (h.requiredCallback hk) hk

theorem eventIrqBody (h : LtdcStable P) : Machine.eventIrqBody.Keeps P :=
  h.rd fun _ => h.rd fun _ => h.requiredBranch <| keeps_whenFlag (h.reloadDone trivial) trivial

theorem errorIrqBody (h : LtdcStable P) : Machine.errorIrqBody.Keeps P :=
  h.rd fun _ => h.rd fun _ => h.requiredBranch <| h.requiredBranch trivial

-- ==== every command ====

/-- The core of every LTDC command keeps what its writes keep, row by row of the table. -/
theorem coreOf (h : LtdcStable P) {i : Instr} (hi : i.isPanel = false) (w : Bool) (o : Operands) : (i.coreOf w o).Keeps P := by
  cases i with
  | pnlObjectInit | pnlStart | pnlStop | pnlAcquireBus | pnlReleaseBus | pnlSelect | pnlUnselect | pnlWriteCommand
  | pnlWriteByte | pnlReadByte | pnlWriteChunk | pnlReadChunk => exact absurd hi (by decide)
  | eventIrq | errorIrq => exact fun _ hk => hk _
  | init => exact h.initCore
  | start => exact h.startCore
  | stop => exact h.stopCore
  | startReload => exact h.startReloadCore
  | reloadWait => exact h.reloadWaitCore
  | acquireBus => exact h.acquireBusCore
  | releaseBus => exact h.releaseBusCore
  | isReloading | getGlobalFlags | getClearColor | getLinePos | getCurrentPos | getEnableFlags | getPixelFormat
  | getKeyColor | isKeyingEnabled | getConstAlpha | getDefaultColor | getBlending | isPaletteEnabled | getFrameAddress =>
    exact h.getter
  | isLayerEnabled => exact isLayerEnabled_keeps
  | setClearColor | setEnableFlags | setKeyColor | setConstAlpha | setDefaultColor | setBlending | setFrameAddress =>
    exact h.setter
  | setLinePos | setPixelFormat => exact h.checkedSetter
  | setGlobalFlags | enableLayer | disableLayer | enableKeying | disableKeying | enablePalette | disablePalette =>
    exact h.modifier
  | setPaletteEntry => exact h.setPaletteEntry
  | setPalette => exact fun _ hk => h.applyPalette (hk _)
  | getWindow => exact fun _ hk => keeps_checkB (h.getWindowTo (hk _))
  | setWindow => exact fun _ hk => keeps_checkB <| keeps_readWindow fun _ => h.applyWindow (hk _)
  | setInvalidWindow => exact fun _ hk => h.applyWindow (hk _)
  | getFrame => exact fun _ hk => keeps_checkB (h.getFrameTo (hk _))
  | setFrame => exact fun _ hk => keeps_checkB <| keeps_readFrame fun _ => h.applyFrame (hk _)
  | getLayer => exact h.getLayerCore
  | setLayer => exact fun _ hk => h.setLayerTo (hk _)
  | bpp | toArgb8888 | fromArgb8888 => exact fun _ hk => keeps_checkB (hk _)

/-- An LTDC command or handler keeps what the LTDC's writes keep: the handlers by their bodies, a command by its core. -/
theorem exec_keeps (h : LtdcStable P) {i : Instr} {s t : State} (hi : i.isPanel = false) (hs : P s)
    (he : exec i s = .next t) : P t := by
  cases hc : i.cls with
  | none =>
    rcases cls_none_iff.1 hc with rfl | rfl
    · exact handler_keeps h.toStable h.eventIrqBody hs he
    · exact handler_keeps h.toStable h.errorIrqBody hs he
  | some cl =>
    rw [exec_eq_command s hc] at he
    exact command_keeps h.toStable (fun _ => h.toLockStable) (fun o => h.coreOf hi _ o) hs he

end LtdcStable

-- ==== the panel ====

/-- What the pseudocode of the panel's commands writes keeps `P`: the panel's own cells and lines, the wire, a byte received,
host memory (R77 to R79, R381 to R393). -/
structure PanelStable (P : State → Prop) : Prop extends Stable P where
  pnlState : ∀ s p, P s → P { s with pnlState := p }
  pnlCfg : ∀ s c, P s → P { s with pnlCfg := c }
  pnlScratch : ∀ s b, P s → P { s with pnlScratch := b }
  pnlOwner : ∀ s a, P s → P { s with pnlOwner := a }
  cs : ∀ s l, P s → P { s with cs := l }
  dcx : ∀ s l, P s → P { s with dcx := l }
  addWire : ∀ s d b, P s → P (s.addWire d b)
  receive : ∀ s, P s → P s.receive
  mem : ∀ s m, P s → P { s with mem := m }

/-- A panel command takes no scheduler lock (R380). -/
theorem cls_of_isPanel {i : Instr} (hi : i.isPanel = true) : ∃ cl, i.cls = some cl ∧ cl.takesLock = false := by
  cases i with
  | pnlObjectInit | pnlStart | pnlStop | pnlAcquireBus | pnlReleaseBus | pnlSelect | pnlUnselect | pnlWriteCommand
  | pnlWriteByte | pnlReadByte | pnlWriteChunk | pnlReadChunk => exact ⟨_, rfl, rfl⟩
  | _ => simp [Instr.isPanel, encode] at hi

namespace PanelStable

theorem pnlObjectInitCore (h : PanelStable P) : Machine.pnlObjectInitCore.Keeps P := fun _ hk =>
  keeps_check <| keeps_act (fun s => h.pnlCfg s _) <| keeps_act (fun s => h.pnlScratch s _) <|
    keeps_act (fun s => h.pnlOwner s _) <| keeps_act (fun s => h.pnlState s _) (hk _)

theorem pnlStartCore (h : PanelStable P) {p : Word} : (pnlStartCore p).Keeps P := fun _ hk =>
  keeps_check <| keeps_checkB <| keeps_crashCheck <| keeps_memRd fun _ => keeps_memRd fun _ =>
    keeps_act (fun s => h.pnlCfg s _) <| keeps_act (fun s => h.pnlState s _) (hk _)

theorem pnlStopCore (h : PanelStable P) : Machine.pnlStopCore.Keeps P := fun _ hk =>
  keeps_check <| keeps_act (fun s => h.pnlState s _) (hk _)

theorem pnlAcquireBusCore (h : PanelStable P) : Machine.pnlAcquireBusCore.Keeps P := fun _ hk =>
  keeps_check <| keeps_holdUntil (fun s => h.pnlOwner s _) (hk _)

theorem pnlReleaseBusCore (h : PanelStable P) : Machine.pnlReleaseBusCore.Keeps P := fun _ hk =>
  keeps_check <| keeps_check <| keeps_act (fun s => h.pnlOwner s _) (hk _)

/-- The select bracket, either way: the shim's call, the chip select, the state (R387, R388). -/
theorem selectBracket (h : PanelStable P) {p q : PnlState} {l : CsLevel} :
    Core.Keeps P fun ret => pnlCheck p <| shim <| act (fun s => { s with cs := l }) <|
      act (fun s => { s with pnlState := q }) <| ret .unit :=
  fun _ hk => keeps_check <| keeps_shim <| keeps_act (fun s => h.cs s _) <| keeps_act (fun s => h.pnlState s _) (hk _)

theorem sendByte (h : PanelStable P) {d : DcxLevel} {b : Byte} : (sendByte d b).Keeps P := fun _ hk =>
  keeps_check <| keeps_act (fun s => h.pnlScratch s _) <| keeps_act (fun s => h.dcx s _) <|
    keeps_act (fun s => h.addWire s _ _) (hk _)

theorem pnlReadByteCore (h : PanelStable P) : Machine.pnlReadByteCore.Keeps P := fun _ hk =>
  keeps_check <| keeps_act (fun s => h.dcx s _)
    ⟨h.receive, fun _ => keeps_act (fun s => h.pnlScratch s _) <| keeps_look fun _ => hk _⟩

theorem chunkHead (h : PanelStable P) {buf n : Word} (hk : k.Keeps P) : (chunkHead buf n k).Keeps P :=
  keeps_check <| keeps_checkB <| keeps_checkB <| keeps_act (fun s => h.dcx s _) hk

theorem spiSend (h : PanelStable P) (hk : k.Keeps P) (d : List Byte) : (spiSend d k).Keeps P := by
  induction d with
  | nil => exact keeps_jump hk
  | cons b d ih => exact keeps_act (fun s => h.addWire s _ _) (keeps_jump ih)

theorem storeChunk (h : PanelStable P) {buf : Word} (hk : k.Keeps P) (d : List Byte) (j : Nat) :
    (storeChunk buf j d k).Keeps P := by
  induction d generalizing j with
  | nil => exact keeps_jump hk
  | cons b d ih => exact keeps_act (fun s => h.mem s _) (keeps_jump (ih _))

theorem pnlWriteChunkCore (h : PanelStable P) {buf n : Word} : (pnlWriteChunkCore buf n).Keeps P := fun _ hk =>
  h.chunkHead <| keeps_crashCheck <| keeps_readChunk (h.spiSend (hk _)) _ _ _

theorem pnlReadChunkCore (h : PanelStable P) {buf n : Word} : (pnlReadChunkCore buf n).Keeps P := fun _ hk =>
  h.chunkHead <| keeps_spiReceive h.receive _ _ fun d _ => keeps_crashCheck <| h.storeChunk (hk _) d _

/-- The core of every panel command keeps what its writes keep. -/
theorem coreOf (h : PanelStable P) {i : Instr} (hi : i.isPanel = true) (w : Bool) (o : Operands) : (i.coreOf w o).Keeps P := by
  cases i with
  | pnlObjectInit => exact h.pnlObjectInitCore
  | pnlStart => exact h.pnlStartCore
  | pnlStop => exact h.pnlStopCore
  | pnlAcquireBus => exact h.pnlAcquireBusCore
  | pnlReleaseBus => exact h.pnlReleaseBusCore
  | pnlSelect | pnlUnselect => exact h.selectBracket
  | pnlWriteCommand | pnlWriteByte => exact h.sendByte
  | pnlReadByte => exact h.pnlReadByteCore
  | pnlWriteChunk => exact h.pnlWriteChunkCore
  | pnlReadChunk => exact h.pnlReadChunkCore
  | _ => simp [Instr.isPanel, encode] at hi

/-- A panel command keeps what the panel's writes keep. -/
theorem exec_keeps (h : PanelStable P) {i : Instr} {s t : State} (hi : i.isPanel = true) (hs : P s) (he : exec i s = .next t) :
    P t := by
  obtain ⟨cl, hc, hl⟩ := cls_of_isPanel hi
  rw [exec_eq_command s hc] at he
  exact command_keeps h.toStable (fun ht => by rw [hl] at ht; cases ht) (fun o => h.coreOf hi _ o) hs he

end PanelStable

end Sys2Proof.Machine
end

section
/-! PROOFS. O57: the panel's cells are written by no LTDC command, and the LTDC's by no panel command (R395). The property that a
run keeps is that the other half is a given one; the cells that the raster agent may change are held to it only where nothing
is scheduled, and then the schedule stays empty. -/

namespace Sys2Proof.Machine

/-- The panel's cells (R77 to R79). -/
def State.panelPart (s : State) : PnlState × Option PnlCfg × Byte × Option Agent × CsLevel × DcxLevel × List WireEntry :=
  (s.pnlState, s.pnlCfg, s.pnlScratch, s.pnlOwner, s.cs, s.dcx, s.wire)

/-- `t` has the driver's cells, the vectors' enables and messages and the registers that the raster agent leaves alone of `s`
(R32 to R36, R40, R67). -/
def State.SameLtdc (t s : State) : Prop :=
  t.drvState = s.drvState ∧ t.activeWindow = s.activeWindow ∧ t.waiter = s.waiter ∧ t.cfg = s.cfg
    ∧ t.lockHolder = s.lockHolder ∧ t.ltdcOwner = s.ltdcOwner ∧ t.nvicEv = s.nvicEv ∧ t.nvicEr = s.nvicEr
    ∧ t.wakeEv = s.wakeEv ∧ t.wakeEr = s.wakeEr ∧ t.shadow = s.shadow ∧ t.clutShadow = s.clutShadow ∧ t.ier = s.ier
    ∧ t.lipcr = s.lipcr

/-- `t` has the cells of `s` that the raster agent writes (R421, R423, R424). -/
def State.SameRaster (t s : State) : Prop :=
  t.active = s.active ∧ t.clutActive = s.clutActive ∧ t.srcr = s.srcr ∧ t.isr = s.isr

/-- The LTDC's state is that of `s₀`; what the raster agent writes too, if nothing was scheduled in `s₀`, and then nothing is. -/
def LtdcAsIn (s₀ s : State) : Prop := s.SameLtdc s₀ ∧ (s₀.sched = [] → s.sched = [] ∧ s.SameRaster s₀)

/-- No LTDC write reaches the panel's cells. -/
theorem panelPart_ltdcStable {p} : LtdcStable fun s => s.panelPart = p where
  sched _ _ _ h := h
  raster s a _ h := by simpa [State.panelPart] using h
  suspend s c h := by simpa [State.panelPart] using h
  finish s w v h := by simpa [State.panelPart] using h
  raise s c e i h := by simpa [State.panelPart] using h
  takeLock _ _ h := h
  releaseLock _ _ h := h
  commit _ h := h
  letGo _ h := h
  takeBack _ _ h := h
  afterRead s r h := by simpa [State.panelPart] using h
  regWrite s r v h := by simpa [State.panelPart] using h
  peripheralReset _ h := h
  drvState _ _ h := h
  activeWindow _ _ h := h
  waiter _ _ h := h
  cfg _ _ h := h
  ltdcOwner _ _ h := h
  nvicEv _ _ h := h
  nvicEr _ _ h := h
  setWake s a m h := by simpa [State.panelPart] using h
  addEvent _ _ h := h
  mapTop s f h := by simpa [State.panelPart] using h
  mem _ _ h := h

/-- No panel write reaches the LTDC's cells, and the raster agent moves only where something is scheduled. -/
theorem ltdcAsIn_panelStable {s₀ : State} : PanelStable (LtdcAsIn s₀) where
  sched _ _ hq h := ⟨h.1, fun h₀ => ⟨hq (h.2 h₀).1, (h.2 h₀).2⟩⟩
  raster s a hn h := ⟨by simpa [State.SameLtdc] using h.1, fun h₀ => absurd (h.2 h₀).1 hn⟩
  suspend s c h := by simpa [LtdcAsIn, State.SameLtdc, State.SameRaster] using h
  finish s w v h := by simpa [LtdcAsIn, State.SameLtdc, State.SameRaster] using h
  raise s c e i h := by simpa [LtdcAsIn, State.SameLtdc, State.SameRaster] using h
  pnlState _ _ h := h
  pnlCfg _ _ h := h
  pnlScratch _ _ h := h
  pnlOwner _ _ h := h
  cs _ _ h := h
  dcx _ _ h := h
  addWire _ _ _ h := h
  receive _ h := h
  mem _ _ h := h

theorem ltdcAsIn_refl {s : State} : LtdcAsIn s s := by simp [LtdcAsIn, State.SameLtdc, State.SameRaster]

/-- Settles O57: each half's commands keep what their writes keep, the other half among it. -/
theorem panelAndLtdcApart : Obligations.PanelAndLtdcApart := by
  intro i s t he
  refine ⟨fun hi => ?_, fun hi => ?_⟩
  · have hpanel : t.panelPart = s.panelPart := panelPart_ltdcStable.exec_keeps hi rfl he
    simpa [State.panelPart] using hpanel
  · obtain ⟨hltdc, hraster⟩ := ltdcAsIn_panelStable.exec_keeps hi ltdcAsIn_refl he
    simpa only [State.SameLtdc, State.SameRaster, and_assoc] using And.intro hltdc fun h => (hraster h).2

end Sys2Proof.Machine
end

section
/-! PROOFS. O24: the raster agent's writes (R427). A step of it does nothing, makes a due commit, or raises a flag while the
controller is on; each clause is read off these three cases. -/

namespace Sys2Proof.Machine

variable {s : State}

/-- A flag is raised while the controller is on, and nothing happens otherwise (R423, R424). -/
theorem raiseFlag_cases (s : State) (f : Word) :
    s.raiseFlag f = s ∨ (s.rasterOn = true ∧ s.raiseFlag f = { s with isr := s.isr ||| f }) := by
  cases hon : s.rasterOn <;> simp [State.raiseFlag, hon]

/-- All that a raster step can do, with the condition it needs (R421, R423, R424). -/
theorem rasterStep_cases (s : State) (a : RasterAct) :
    s.rasterStep a = s ∨ (s.commitEnabled = true ∧ s.rasterStep a = s.commit)
      ∨ (s.rasterOn = true ∧ ∃ f, s.rasterStep a = { s with isr := s.isr ||| f }) := by
  cases a with
  | commit => cases hc : s.commitEnabled <;> simp [State.rasterStep, hc]
  | line => exact (raiseFlag_cases s flagLine).imp_right fun ⟨hon, h⟩ => .inr ⟨hon, _, h⟩
  | underrun => exact (raiseFlag_cases s flagUnderrun).imp_right fun ⟨hon, h⟩ => .inr ⟨hon, _, h⟩
  | transferError => exact (raiseFlag_cases s flagTerr).imp_right fun ⟨hon, h⟩ => .inr ⟨hon, _, h⟩

/-- Flags set in a word leave its bits set. -/
theorem and_or_self (v f : Word) : v &&& (v ||| f) = v := by
  ext i
  simp +contextual

/-- A commit sets RRIF or leaves ISR alone (R421). -/
theorem commit_keeps_isr_bits (s : State) : s.isr &&& s.commit.isr = s.isr := by
  simp only [State.commit]
  split
  · exact and_or_self _ _
  · exact BitVec.and_self

/-- With the controller off only an immediate request makes a commit due (R421, R422). -/
theorem commitEnabled_off (hoff : s.rasterOn = false) (hi : hasBits s.srcr srcrImr = false) : s.commitEnabled = false := by
  simp [State.commitEnabled, hoff, hi]

/-- Every raster step needs the controller on or an immediate request (R421 to R424). -/
theorem rasterStep_off (a : RasterAct) (hoff : s.rasterOn = false) (hi : hasBits s.srcr srcrImr = false) :
    s.rasterStep a = s := by
  obtain h | ⟨hc, -⟩ | ⟨hon, -⟩ := rasterStep_cases s a
  · exact h
  · simp [commitEnabled_off hoff hi] at hc
  · simp [hoff] at hon

/-- Settles O24: the first three clauses hold in each case of a raster step, and the last excludes all but the first case. -/
theorem rasterWritesOnlyItsOwn : Obligations.RasterWritesOnlyItsOwn := by
  intro s a
  have hoff := rasterStep_off (s := s) a
  obtain h | ⟨-, h⟩ | ⟨-, f, h⟩ := rasterStep_cases s a <;> rw [h] at hoff ⊢
  · exact ⟨rfl, BitVec.and_self, .inl rfl, hoff⟩
  · exact ⟨rfl, commit_keeps_isr_bits s, .inr rfl, hoff⟩
  · exact ⟨rfl, and_or_self s.isr f, .inl rfl, hoff⟩

end Sys2Proof.Machine
end

section
/-! PROOFS. O17: interrupt entry (R459). A running handler alone decides the context and holds every thread; entry puts one
there. -/

namespace Sys2Proof.Machine

variable {s : State}

/-- While a handler runs, the context is ISR (R459). -/
theorem ctx_isr_of_irq {a : Activation} {below : List Activation} (h : s.irq = a :: below) : s.ctx = .isr := by
  simp only [State.ctx, h]

/-- While a handler runs, no thread has a step (R459). -/
theorem not_runnable_of_irq {a : Activation} {below : List Activation} (h : s.irq = a :: below) (t : Nat) :
    s.runnable t = false := by
  simp only [State.runnable, h, List.isEmpty_cons, Bool.false_and]

/-- The step at a slot that delivers a vector the rules enable (R458, R459): entry, and the slot is used up. -/
theorem step_deliver {v : Vec} {r : List Slot} (hf : s.fault = none) (hs : s.sched = .deliver v :: r)
    (hd : s.deliverable v = true) : step s = .next { s.enter v with sched := r } := by
  simp [step, State.advance, hf, hs, hd]

/-- Settles O17: entry is one activation put on top of `irq`; what it means for the context and the threads follows from that
activation alone. -/
theorem entrySavesNothing : Obligations.EntrySavesNothing := by
  intro s v
  have hirq : (s.enter v).irq = .entry v :: s.irq := State.enter_irq s v
  exact ⟨rfl, ctx_isr_of_irq hirq, not_runnable_of_irq hirq, fun _ => step_deliver⟩

end Sys2Proof.Machine
end

section
/-! PROOFS. What one command or handler of the LTDC writes. `LtdcStable` asks for a property that every write of every LTDC
command keeps; here the property need only be kept by the writes of the one instruction: commits and resets where it reloads,
the driver states it enters, events other than FAULT, the running activation but for its vector, and fields of memory. -/

namespace Sys2Proof

/-- The driver states a command or handler can enter (R32, R200 to R206, R460). -/
def Instr.enters : Instr → Machine.DrvState → Bool
  | .init, d => d == .stop
  | .start _, d => d == .ready
  | .stop _, d => d == .stop
  | .startReload _, d => d == .active
  | .reloadWait _, d => d == .active || d == .ready
  | .eventIrq, d => d == .ready
  | _, _ => false

end Sys2Proof

namespace Sys2Proof.Machine

variable {P : State → Prop} {k : Prog}

/-- What the commands that reload write besides registers and the driver's state keeps `P` (R200 to R206). -/
structure ReloadStable (P : State → Prop) : Prop extends PollStable P where
  peripheralReset : ∀ s, P s → P s.peripheralReset
  activeWindow : ∀ s w, P s → P { s with activeWindow := w }
  cfg : ∀ s c, P s → P { s with cfg := c }
  nvicEv : ∀ s b, P s → P { s with nvicEv := b }
  nvicEr : ∀ s b, P s → P { s with nvicEr := b }

/-- What the pseudocode of the LTDC command or handler `i` writes keeps `P`. -/
structure WriteStable (i : Instr) (P : State → Prop) : Prop extends Stable P, LockStable P, RegStable P where
  reload : i.reloads = true → ReloadStable P
  drvState : ∀ s d, i.enters d = true → P s → P { s with drvState := d }
  waiter : ∀ s a, P s → P { s with waiter := a }
  ltdcOwner : ∀ s a, P s → P { s with ltdcOwner := a }
  setWake : ∀ s a m, P s → P (s.setWake a m)
  addEvent : ∀ s e, e.isFault = false → P s → P (s.addEvent e)
  mapTop : ∀ s f, (∀ a, (f a).vec = a.vec) → P s → P (s.mapTop f)
  writeLe : ∀ s a n v, P s → P { s with mem := s.mem.writeLe a n v }

namespace WriteStable

variable {i : Instr} {c : Form}

-- ==== life cycle, reload, mutex ====

theorem enter (h : WriteStable i P) {d : DrvState} (hd : i.enters d = true) (hk : k.Keeps P) :
    (act (fun s => { s with drvState := d }) k).Keeps P :=
  keeps_act (fun s => h.drvState s d hd) hk

theorem initCore (h : WriteStable .init P) : Machine.initCore.Keeps P := fun _ hk =>
  keeps_check <| keeps_act (h.reload rfl).peripheralReset <| keeps_act (fun s => (h.reload rfl).activeWindow s _) <|
    keeps_act (fun s => h.waiter s _) <| keeps_act (fun s => h.ltdcOwner s _) <| keeps_act (fun s => (h.reload rfl).cfg s _) <|
    h.enter rfl (hk _)

theorem programTimings (h : WriteStable (.start c) P) {d : ConfigD} (hk : k.Keeps P) : (programTimings d k).Keeps P :=
  keeps_checkB <| keeps_checkB <| h.wr <|
    keeps_checkB <| keeps_checkB <| keeps_checkB <| keeps_checkB <| h.wr <|
    keeps_checkB <| keeps_checkB <| keeps_checkB <| keeps_checkB <| h.wr <|
    keeps_checkB <| keeps_checkB <| keeps_checkB <| keeps_checkB <| h.wr <|
    keeps_act (fun s => (h.reload rfl).activeWindow s _) hk

/-- The internal commit of the commands that reload (R201). -/
theorem commitNow (h : WriteStable i P) (hr : i.reloads = true) (hk : k.Keeps P) : (internalCommit k).Keeps P :=
  h.internalCommit (h.reload hr).toPollStable hk

theorem startTail (h : WriteStable (.start c) P) {d : ConfigD} (hk : k.Keeps P) : (startTail d k).Keeps P :=
  keeps_act (fun s => (h.reload rfl).nvicEv s _) <| keeps_act (fun s => (h.reload rfl).nvicEr s _) <| h.wr <| h.commitNow rfl <|
    h.rd fun _ => h.wr <| h.commitNow rfl <| h.enter rfl hk

theorem startCore (h : WriteStable (.start c) P) {p : Word} : (startCore p).Keeps P := fun _ hk =>
  keeps_check <| keeps_checkB <| keeps_readConfig fun _ => keeps_act (fun s => (h.reload rfl).cfg s _) <|
    h.rd fun _ => h.wr <| h.wr <| h.commitNow rfl <| h.programTimings <| h.rd fun _ => h.wr <| h.wr <|
    h.setLayerTo <| h.setLayerTo <| h.startTail (hk _)

theorem stopCore (h : WriteStable (.stop c) P) : Machine.stopCore.Keeps P := fun _ hk =>
  keeps_check <| h.rd fun _ => h.wr <| h.wr <| h.commitNow rfl <| h.enter rfl (hk _)

theorem startReloadCore (h : WriteStable (.startReload c) P) {x : Word} : (startReloadCore x).Keeps P := fun _ hk =>
  keeps_check <| h.enter rfl <| h.wr (hk _)

theorem polledWait (h : WriteStable (.reloadWait c) P) {b : Word} : (polledWait b).Keeps P := fun _ hk =>
  h.wr ⟨(h.reload rfl).toPollStable, h.enter rfl (hk _)⟩

theorem sleepingWait (h : WriteStable (.reloadWait c) P) : Machine.sleepingWait.Keeps P := fun _ hk =>
  h.wr <| keeps_act (fun s => h.waiter s _) <| keeps_sleep (h.reload rfl).toPollStable <|
    keeps_act (fun s => h.setWake s _ _) (hk _)

theorem reloadWaitCore (h : WriteStable (.reloadWait c) P) {w : Bool} {x : Word} : (reloadWaitCore w x).Keeps P := by
  intro ret hk
  refine keeps_check <| keeps_check <| h.enter rfl ?_
  split
  · split
    · exact h.polledWait _ fun _ => keeps_jump (hk _)
    · exact keeps_jump (h.sleepingWait _ hk)
  · exact h.polledWait _ hk

theorem acquireBusCore (h : WriteStable i P) : Machine.acquireBusCore.Keeps P := fun _ hk =>
  keeps_check <| keeps_holdUntil (fun s => h.ltdcOwner s _) (hk _)

theorem releaseBusCore (h : WriteStable i P) : Machine.releaseBusCore.Keeps P := fun _ hk =>
  keeps_check <| keeps_check <| keeps_act (fun s => h.ltdcOwner s _) (hk _)

-- ==== the records written ====

theorem memWr (h : WriteStable i P) {base v : Word} {off n : Nat} (hk : k.Keeps P) : (memWr base off n v k).Keeps P :=
  keeps_memWr (fun s => h.writeLe s _ _ _) hk

theorem getWindowTo (h : WriteStable i P) {l : Layer} {q : Word} {o : Nat} (hk : k.Keeps P) : (getWindowTo l q o k).Keeps P :=
  h.rd fun _ => h.rd fun _ => keeps_look fun _ => keeps_look fun _ => keeps_crashCheck <|
    h.memWr <| h.memWr <| h.memWr <| h.memWr hk

theorem getFrameTo (h : WriteStable i P) {l : Layer} {q : Word} (hk : k.Keeps P) : (getFrameTo l q k).Keeps P :=
  h.rd fun _ => h.rd fun _ => h.rd fun _ => h.rd fun _ => keeps_crashCheck <|
    h.memWr <| h.memWr <| h.memWr <| h.memWr <| h.memWr hk

theorem getLayerCore (h : WriteStable i P) {l : Layer} {q : Word} : (getLayerCore l q).Keeps P := fun _ hk =>
  keeps_checkB <| h.getFrameTo <| h.getWindowTo <| h.rd fun _ => h.memWr <| h.rd fun _ => h.memWr <| h.rd fun _ => h.memWr <|
    h.memWr <| h.memWr <| h.rd fun _ => h.memWr <| h.rd fun _ => h.memWr (hk _)

-- ==== the handlers ====

theorem callback (h : WriteStable i P) {kind : CbKind} {cb : Word} (hk : k.Keeps P) : (callback kind cb k).Keeps P := by
  refine keeps_act (fun s => h.addEvent s _ rfl) ⟨fun s hs => ?_, fun _ => hk⟩
  show Micro.Keeps P (if _ then _ else _)
  split
  · exact hs
  · exact h.mapTop s _ (fun _ => rfl) hs

theorem acknowledge (h : WriteStable i P) {flag : Word} (hk : k.Keeps P) : (acknowledge flag k).Keeps P := h.rd fun _ => h.wr hk

/-- A branch of a handler whose callback must not be null. -/
theorem requiredBranch (h : WriteStable i P) {sample flag flag' : Word} {off : Nat} {kind : CbKind} (hk : k.Keeps P) :
    (whenFlag sample flag requiredSize (requiredCallback off kind flag') k).Keeps P :=
  keeps_whenFlag (keeps_cfgRd fun _ => keeps_checkB <| keeps_crashCheck <| h.callback <| h.acknowledge hk) hk

theorem sendWake (h : WriteStable i P) (s : State) (hs : P s) : P s.sendWake := by
  unfold State.sendWake
  split
  · exact h.setWake s _ _ hs
  · exact hs

theorem logWake (h : WriteStable i P) (s : State) (hs : P s) : P s.logWake := by
  unfold State.logWake
  split
  · exact h.addEvent s _ rfl hs
  · exact hs

theorem wakeParked (h : WriteStable i P) (hk : k.Keeps P) : (wakeParked k).Keeps P := by
  refine keeps_look fun b => ?_
  split
  · exact keeps_jump hk
  · exact keeps_act h.sendWake <| keeps_act h.logWake <| keeps_act (fun s => h.waiter s _) hk

theorem completeReload (h : WriteStable .eventIrq P) (hk : k.Keeps P) : (completeReload k).Keeps P :=
  keeps_act (fun s => h.mapTop s _ fun _ => rfl) <| keeps_check <| h.wakeParked <| h.enter rfl <|
    keeps_act (fun s => h.mapTop s _ fun _ => rfl) <| h.acknowledge hk

theorem reloadDone (h : WriteStable .eventIrq P) (hk : k.Keeps P) : (reloadDone k).Keeps P := by
  refine keeps_cfgRd fun cb => ?_
  split
  · exact keeps_jump (h.completeReload hk)
  · exact h.callback (h.completeReload hk)

theorem eventIrqBody (h : WriteStable .eventIrq P) : Machine.eventIrqBody.Keeps P :=
  h.rd fun _ => h.rd fun _ => h.requiredBranch <| keeps_whenFlag (h.reloadDone trivial) trivial

theorem errorIrqBody (h : WriteStable .errorIrq P) : Machine.errorIrqBody.Keeps P :=
  h.rd fun _ => h.rd fun _ => h.requiredBranch <| h.requiredBranch trivial

-- ==== every command ====

/-- The core of an LTDC command keeps what its writes keep, row by row of the table. -/
theorem coreOf (h : WriteStable i P) (hi : i.isPanel = false) (w : Bool) (o : Operands) : (i.coreOf w o).Keeps P := by
  cases i with
  | pnlObjectInit | pnlStart | pnlStop | pnlAcquireBus | pnlReleaseBus | pnlSelect | pnlUnselect | pnlWriteCommand
  | pnlWriteByte | pnlReadByte | pnlWriteChunk | pnlReadChunk => exact absurd hi (by decide)
  | eventIrq | errorIrq => exact fun _ hk => hk _
  | init => exact h.initCore
  | start => exact h.startCore
  | stop => exact h.stopCore
  | startReload => exact h.startReloadCore
  | reloadWait => exact h.reloadWaitCore
  | acquireBus => exact h.acquireBusCore
  | releaseBus => exact h.releaseBusCore
  | isReloading | getGlobalFlags | getClearColor | getLinePos | getCurrentPos | getEnableFlags | getPixelFormat
  | getKeyColor | isKeyingEnabled | getConstAlpha | getDefaultColor | getBlending | isPaletteEnabled | getFrameAddress =>
    exact h.getter
  | isLayerEnabled => exact isLayerEnabled_keeps
  | setClearColor | setEnableFlags | setKeyColor | setConstAlpha | setDefaultColor | setBlending | setFrameAddress =>
    exact h.setter
  | setLinePos | setPixelFormat => exact h.checkedSetter
  | setGlobalFlags | enableLayer | disableLayer | enableKeying | disableKeying | enablePalette | disablePalette =>
    exact h.modifier
  | setPaletteEntry => exact h.setPaletteEntry
  | setPalette => exact fun _ hk => h.applyPalette (hk _)
  | getWindow => exact fun _ hk => keeps_checkB (h.getWindowTo (hk _))
  | setWindow => exact fun _ hk => keeps_checkB <| keeps_readWindow fun _ => h.applyWindow (hk _)
  | setInvalidWindow => exact fun _ hk => h.applyWindow (hk _)
  | getFrame => exact fun _ hk => keeps_checkB (h.getFrameTo (hk _))
  | setFrame => exact fun _ hk => keeps_checkB <| keeps_readFrame fun _ => h.applyFrame (hk _)
  | getLayer => exact h.getLayerCore
  | setLayer => exact fun _ hk => h.setLayerTo (hk _)
  | bpp | toArgb8888 | fromArgb8888 => exact fun _ hk => keeps_checkB (hk _)

/-- An LTDC command or handler keeps what its writes keep, from every cell and with every schedule: a handler by its body, a
command by its core. -/
theorem exec_keeps (h : WriteStable i P) {s t : State} (hi : i.isPanel = false) (hs : P s) (he : exec i s = .next t) : P t := by
  cases hc : i.cls with
  | none =>
    rcases cls_none_iff.1 hc with rfl | rfl
    · exact handler_keeps h.toStable h.eventIrqBody hs he
    · exact handler_keeps h.toStable h.errorIrqBody hs he
  | some cl =>
    rw [exec_eq_command s hc] at he
    exact command_keeps h.toStable (fun _ => h.toLockStable) (fun o => h.coreOf hi _ o) hs he

end WriteStable

end Sys2Proof.Machine
end

section
/-! PROOFS. O9 and O10: the invariant (R40, R45, R66, R421, R452, R458, R462). Each of its four parts is kept by every write: the
canonical form by every write to memory, the reserved bits by every register write and by the raster agent, the vectors by what
the handlers do with their activation, and the mark by `raise` alone, which records FAULT with it. -/

namespace Sys2Proof.Machine

-- ==== reserved bits ====

section Bits

variable {m a b : Word}

theorem onlyBits_or (ha : onlyBits m a = true) (hb : onlyBits m b = true) : onlyBits m (a ||| b) = true := by
  simp only [onlyBits, beq_iff_eq] at *
  rw [BitVec.and_or_distrib_right, ha, hb]
  rfl

theorem onlyBits_and_left (ha : onlyBits m a = true) : onlyBits m (a &&& b) = true := by
  simp only [onlyBits, beq_iff_eq] at *
  rw [BitVec.and_assoc, BitVec.and_comm b, ← BitVec.and_assoc, ha]
  exact BitVec.zero_and

theorem onlyBits_and_right (hb : onlyBits m b = true) : onlyBits m (a &&& b) = true :=
  BitVec.and_comm b a ▸ onlyBits_and_left hb

theorem onlyBits_self : onlyBits m m = true := by simp [onlyBits]

theorem onlyBits_zero : onlyBits m 0 = true := by simp [onlyBits]

/-- What a write without read-only bits stores has no reserved bit (R15). -/
theorem onlyBits_stored (old : Word) : onlyBits m (stored 0 m old a) = true := by
  rw [stored_zero]
  exact onlyBits_and_right onlyBits_self

end Bits

variable {s t : State} {i : Instr}

/-- A layer register's write leaves no reserved bit (R53 to R63). -/
theorem LayerRegs.clean_put {r : LayerRegs} {old v : Word} (q : LReg) (h : r.clean = true) :
    (r.put (stored 0 q.writableMask old v) q).clean = true := by
  simp only [LayerRegs.clean, Bool.and_eq_true] at h ⊢
  cases q <;> simp only [LayerRegs.put, onlyBits_stored, h, and_self]

theorem RegFile.clean_layer {f : RegFile} (l : Layer) (h : f.clean = true) : (f.layer l).clean = true := by
  simp only [RegFile.clean, Bool.and_eq_true] at h
  cases l with
  | l1 => exact h.1.2
  | l2 => exact h.2

theorem RegFile.clean_setLayer {f : RegFile} {r : LayerRegs} (l : Layer) (h : f.clean = true) (hr : r.clean = true) :
    (f.setLayer l r).clean = true := by
  simp only [RegFile.clean, Bool.and_eq_true] at h ⊢
  cases l <;> simp only [RegFile.setLayer, h, hr, and_self]

theorem RegFile.clean_writeLayer {f : RegFile} {v : Word} (l : Layer) (q : LReg) (h : f.clean = true) :
    (f.writeLayer l q v).clean = true :=
  clean_setLayer l h (LayerRegs.clean_put q (clean_layer l h))

/-- GCR's write leaves no reserved bit, and the read-only bits as they were (R45). -/
theorem gcr_stored_clean {g : Word} (v : Word) (h : g &&& gcrRoMask = Config.ditherWidths) :
    onlyBits (gcrMask ||| gcrRoMask) (stored gcrRoMask gcrMask g v) = true
      ∧ stored gcrRoMask gcrMask g v &&& gcrRoMask = Config.ditherWidths := by
  have hro : gcrMask &&& gcrRoMask = 0#32 := by decide
  refine ⟨onlyBits_or (onlyBits_and_right (by decide)) (onlyBits_and_right (by decide)), ?_⟩
  rw [stored, BitVec.and_or_distrib_right, BitVec.and_assoc v, hro, BitVec.and_zero, BitVec.or_zero, and_mask_twice, h]

/-- The register part of the state is clean, part by part. -/
theorem regsClean_iff : s.regsClean = true ↔ s.shadow.clean = true ∧ s.active.clean = true
    ∧ onlyBits 0x3 s.srcr = true ∧ onlyBits 0xF s.ier = true ∧ onlyBits 0xF s.isr = true
    ∧ onlyBits Reg.lipcr.writableMask s.lipcr = true := by
  simp only [State.regsClean, Bool.and_eq_true, and_assoc]
  rfl

/-- A register write leaves no reserved bit, whatever it writes (R15, R40). -/
theorem regWrite_regsClean (r : Reg) (v : Word) (h : s.regsClean = true) : (s.regWrite r v).regsClean = true := by
  rw [regsClean_iff] at h ⊢
  obtain ⟨hsh, hact, hsrcr, hier, hisr, hlip⟩ := h
  have hshadow : (s.regWrite r v).shadow.clean = true := by
    cases r with
    | sscr | bpcr | awcr | twcr | bccr =>
      simp only [RegFile.clean, Bool.and_eq_true] at hsh ⊢
      simp only [State.regWrite, onlyBits_stored, hsh, and_self]
    | gcr =>
      simp only [RegFile.clean, Bool.and_eq_true, beq_iff_eq] at hsh ⊢
      obtain ⟨⟨⟨⟨_, hro⟩, _⟩, _⟩, _⟩ := id hsh
      have hg := gcr_stored_clean v hro
      simp only [State.regWrite, show Reg.gcr.writableMask = gcrMask from rfl, hg, hsh, and_self]
    | lay l q =>
      simp only [State.regWrite, State.writeLayerReg]
      split
      · exact hsh
      · exact RegFile.clean_writeLayer l q hsh
    | srcr | ier | isr | icr | lipcr | cpsr => exact hsh
  refine ⟨hshadow, by simpa using hact, ?_⟩
  cases r with
  | srcr => exact ⟨onlyBits_or hsrcr (onlyBits_and_right onlyBits_self), hier, hisr, hlip⟩
  | ier => exact ⟨hsrcr, onlyBits_stored _, hisr, hlip⟩
  | icr => exact ⟨hsrcr, hier, onlyBits_and_left hisr, hlip⟩
  | lipcr => exact ⟨hsrcr, hier, hisr, onlyBits_stored _⟩
  | lay l q =>
    simp only [State.regWrite, State.writeLayerReg]
    split <;> exact ⟨hsrcr, hier, hisr, hlip⟩
  | sscr | bpcr | awcr | twcr | gcr | bccr | isr | cpsr => exact ⟨hsrcr, hier, hisr, hlip⟩

theorem resetValues_clean : RegFile.resetValues.clean = true := by decide

theorem commit_regsClean (h : s.regsClean = true) : s.commit.regsClean = true := by
  rw [regsClean_iff] at h ⊢
  obtain ⟨hsh, -, -, hier, hisr, hlip⟩ := h
  refine ⟨hsh, hsh, onlyBits_zero, hier, ?_, hlip⟩
  simp only [State.commit]
  split
  · exact onlyBits_or hisr (by decide)
  · exact hisr

theorem raiseFlag_regsClean {f : Word} (hf : onlyBits 0xF f = true) (h : s.regsClean = true) :
    (s.raiseFlag f).regsClean = true := by
  unfold State.raiseFlag
  split
  · rw [regsClean_iff] at h ⊢
    obtain ⟨hsh, hact, hsrcr, hier, hisr, hlip⟩ := h
    exact ⟨hsh, hact, hsrcr, hier, onlyBits_or hisr hf, hlip⟩
  · exact h

theorem rasterStep_regsClean (a : RasterAct) (h : s.regsClean = true) : (s.rasterStep a).regsClean = true := by
  cases a with
  | commit =>
    show (if s.commitEnabled then s.commit else s).regsClean = true
    split
    · exact commit_regsClean h
    · exact h
  | line | underrun | transferError => exact raiseFlag_regsClean (by decide) h

theorem reset_regsClean : State.reset.regsClean = true :=
  regsClean_iff.2 ⟨resetValues_clean, resetValues_clean, by decide, by decide, by decide, by decide⟩

-- ==== the active vectors ====

/-- Keeping a cell changes no activation's vector. -/
theorem suspend_vecs (s : State) (c : Cell) : (s.suspend c).irq.map Activation.vec = s.irq.map Activation.vec := by
  unfold State.suspend
  split
  · rename_i a rest hi
    split <;> simp only [hi, List.map_cons]
  · rfl

/-- A return ends the running activation or none (R462). -/
theorem finish_vecs (s : State) (w : CmdWord) (v : ResultVal) :
    ((s.finish w v).irq.map Activation.vec).Sublist (s.irq.map Activation.vec) := by
  unfold State.finish
  split
  · rename_i a rest hi
    split
    · simp only [hi, List.map_cons, List.Sublist.refl]
    · simp only [hi, List.map_cons, List.sublist_cons_self]
  · exact List.Sublist.refl _

theorem mapTop_vecs (s : State) {f : Activation → Activation} (hf : ∀ a, (f a).vec = a.vec) :
    (s.mapTop f).irq.map Activation.vec = s.irq.map Activation.vec := by
  unfold State.mapTop
  split
  · rename_i a rest hi
    simp only [hi, List.map_cons, hf]
  · rfl

/-- A vector whose delivery the rules enable has no handler active (R458 c). -/
theorem vec_not_active {v : Vec} (h : s.deliverable v = true) : v ∉ s.irq.map Activation.vec := by
  simp only [State.deliverable, State.canDeliver, State.handlerRuns, Bool.and_eq_true, Bool.not_eq_true'] at h
  obtain ⟨⟨⟨-, hfree⟩, -⟩, -⟩ := h
  simpa using hfree

-- ==== the parts of the invariant ====

/-- Host memory is in its canonical form. -/
def State.MemWf (s : State) : Prop := s.mem.wf = true

/-- The invariant but for memory: reserved bits, active vectors, fault mark. -/
def State.InvButMem (s : State) : Prop :=
  s.regsClean = true ∧ (s.irq.map Activation.vec).Nodup ∧ s.fault.isSome = s.events.any Event.isFault

theorem inv_iff : s.Inv ↔ s.MemWf ∧ s.InvButMem := Iff.rfl

theorem memWf_stable : Stable State.MemWf where
  sched _ _ _ h := h
  raster s a _ h := by simpa [State.MemWf] using h
  suspend s c h := by simpa [State.MemWf] using h
  finish s w v h := by simpa [State.MemWf] using h
  raise s c e i h := by simpa [State.MemWf] using h

theorem memWf_lockStable : LockStable State.MemWf := ⟨fun _ _ h => h, fun _ _ h => h⟩

theorem memWf_schedStable : SchedStable State.MemWf where
  commit _ h := h
  enter _ _ _ h := h
  switchTo _ _ h := h
  setThread _ _ _ h := h
  body _ _ _ _ _ _ h := h

/-- Every write of an LTDC command or handler keeps memory canonical: a record's fields are stored one by one. -/
theorem memWf_writeStable : WriteStable i State.MemWf where
  toStable := memWf_stable
  toLockStable := memWf_lockStable
  afterRead s r h := by simpa [State.MemWf] using h
  regWrite s r v h := by simpa [State.MemWf] using h
  reload _ := ⟨⟨fun _ h => h, fun _ h => h, fun _ _ h => h⟩, fun _ h => h, fun _ _ h => h, fun _ _ h => h, fun _ _ h => h,
    fun _ _ h => h⟩
  drvState _ _ _ h := h
  waiter _ _ h := h
  ltdcOwner _ _ h := h
  setWake s a m h := by simpa [State.MemWf] using h
  addEvent _ _ _ h := h
  mapTop s f _ h := by simpa [State.MemWf] using h
  writeLe _ _ _ _ h := Mem.writeLe_wf h

theorem storeChunk_keepsWf {buf : Word} {k : Prog} (hk : k.Keeps State.MemWf) (d : List Byte) (j : Nat) :
    (storeChunk buf j d k).Keeps State.MemWf := by
  induction d generalizing j with
  | nil => exact keeps_jump hk
  | cons b d ih => exact keeps_act (fun _ h => Mem.set_wf h) (keeps_jump (ih _))

theorem pnlReadChunk_keepsWf {buf n : Word} : (pnlReadChunkCore buf n).Keeps State.MemWf := fun _ hk =>
  keeps_check <| keeps_checkB <| keeps_checkB <| keeps_act (fun _ h => h) <|
    keeps_spiReceive (fun _ h => h) _ _ fun d _ => keeps_crashCheck <| storeChunk_keepsWf (hk _) d _

/-- The one panel command that writes host memory (R16, R393). -/
theorem eq_pnlReadChunk (hp : i.isPanel = true) (hw : i.writesMemory = true) : i = .pnlReadChunk := by
  cases i with
  | pnlReadChunk => rfl
  | getWindow | getFrame | getLayer => simp [Instr.isPanel, encode] at hp
  | _ => cases hw

/-- Every instruction keeps memory canonical: an LTDC command or handler by its writes, the panel's read chunk by its store loop,
and every other panel command because it writes none (R16). -/
theorem exec_keepsWf (h : s.MemWf) (he : exec i s = .next t) : t.MemWf := by
  cases hp : i.isPanel with
  | false => exact memWf_writeStable.exec_keeps hp h he
  | true =>
    cases hw : i.writesMemory with
    | false =>
      have hm : t.mem = s.mem := memoryUnchanged i s t hw he
      rwa [State.MemWf, hm]
    | true =>
      obtain rfl := eq_pnlReadChunk hp hw
      exact command_keeps memWf_stable (fun _ => memWf_lockStable) (fun _ => pnlReadChunk_keepsWf) h he

theorem invButMem_stable : Stable State.InvButMem where
  sched _ _ _ h := h
  raster s a _ h := by
    obtain ⟨hr, hv, hf⟩ := h
    refine ⟨rasterStep_regsClean a hr, by simpa using hv, ?_⟩
    obtain he | ⟨-, he⟩ | ⟨-, f, he⟩ := rasterStep_cases s a <;> rw [he]
    · exact hf
    · simpa [State.commit, Event.isFault] using hf
    · exact hf
  suspend s c h := by
    obtain ⟨hr, hv, hf⟩ := h
    exact ⟨by simpa [State.regsClean] using hr, by rwa [suspend_vecs], by simpa using hf⟩
  finish s w v h := by
    obtain ⟨hr, hv, hf⟩ := h
    exact ⟨by simpa [State.regsClean] using hr, hv.sublist (finish_vecs s w v), by simpa using hf⟩
  raise s c e i h := by
    obtain ⟨hr, hv, -⟩ := h
    refine ⟨by simpa [State.regsClean] using hr, ?_, by simp [State.raise, Event.isFault]⟩
    show ((s.suspend c).irq.map Activation.vec).Nodup
    rwa [suspend_vecs]

theorem invButMem_lockStable : LockStable State.InvButMem := ⟨fun _ _ h => h, fun _ _ h => h⟩

/-- A commit records itself, which is no FAULT. -/
theorem commit_invButMem (s : State) (h : s.InvButMem) : s.commit.InvButMem := by
  obtain ⟨hr, hv, hf⟩ := h
  exact ⟨commit_regsClean hr, hv, by simpa [State.commit, Event.isFault] using hf⟩

theorem invButMem_schedStable : SchedStable State.InvButMem where
  commit := commit_invButMem
  enter s v hd h := by
    obtain ⟨hr, hv, hf⟩ := h
    exact ⟨hr, List.nodup_cons.2 ⟨vec_not_active hd, hv⟩, hf⟩
  switchTo _ _ h := h
  setThread _ _ _ h := h
  body s a rest more c hi h := by
    obtain ⟨hr, hv, hf⟩ := h
    exact ⟨hr, by simpa [hi] using hv, hf⟩

theorem invButMem_writeStable : WriteStable i State.InvButMem where
  toStable := invButMem_stable
  toLockStable := invButMem_lockStable
  afterRead s r h := by simpa [State.InvButMem, State.regsClean] using h
  regWrite s r v h := by
    obtain ⟨hr, hv, hf⟩ := h
    exact ⟨regWrite_regsClean r v hr, by simpa using hv, by simpa using hf⟩
  reload _ :=
    { commit := commit_invButMem
      letGo _ h := h
      takeBack _ _ h := h
      peripheralReset _ h := ⟨reset_regsClean, h.2⟩
      activeWindow _ _ h := h
      cfg _ _ h := h
      nvicEv _ _ h := h
      nvicEr _ _ h := h }
  drvState _ _ _ h := h
  waiter _ _ h := h
  ltdcOwner _ _ h := h
  setWake s a m h := by simpa [State.InvButMem, State.regsClean] using h
  addEvent s e he h := by
    obtain ⟨hr, hv, hf⟩ := h
    exact ⟨hr, hv, by simpa [State.addEvent, he] using hf⟩
  mapTop s f hf h := by
    obtain ⟨hr, hv, hm⟩ := h
    exact ⟨by simpa [State.regsClean] using hr, by rwa [mapTop_vecs s hf], by simpa using hm⟩
  writeLe _ _ _ _ h := h

/-- No panel command writes what this part of the invariant speaks of (R395). -/
theorem invButMem_panelStable : PanelStable State.InvButMem where
  toStable := invButMem_stable
  pnlState _ _ h := h
  pnlCfg _ _ h := h
  pnlScratch _ _ h := h
  pnlOwner _ _ h := h
  cs _ _ h := h
  dcx _ _ h := h
  addWire _ _ _ h := h
  receive _ h := h
  mem _ _ h := h

theorem exec_keepsInvButMem (h : s.InvButMem) (he : exec i s = .next t) : t.InvButMem := by
  cases hp : i.isPanel with
  | false => exact invButMem_writeStable.exec_keeps hp h he
  | true => exact invButMem_panelStable.exec_keeps hp h he

/-- Settles O9: each part by the step's rule, from what the instructions and the scheduling of agents do to it. -/
theorem invariantKept : Obligations.InvariantKept := fun _ _ h he =>
  ⟨step_keeps memWf_stable memWf_lockStable memWf_schedStable (fun _ _ _ => exec_keepsWf) (inv_iff.1 h).1 he,
    step_keeps invButMem_stable invButMem_lockStable invButMem_schedStable (fun _ _ _ => exec_keepsInvButMem) (inv_iff.1 h).2 he⟩

/-- Settles O10: the reset values are clean, and nothing runs, is recorded or is stored at reset. -/
theorem invariantAtReset : Obligations.InvariantAtReset := ⟨reset_mem_wf, reset_regsClean, List.nodup_nil, rfl⟩

end Sys2Proof.Machine
end

section
/-! PROOFS. O58: what makes no reload leaves the active registers and palettes (R67, R510). With nothing scheduled the raster
agent does not move, and no other write of a command reaches them. -/

namespace Sys2Proof.Machine

variable {s₀ : State} {i : Instr}

/-- Nothing is scheduled, and the active copies are those of `s₀`. -/
def ActiveAsIn (s₀ s : State) : Prop := s.sched = [] ∧ s.active = s₀.active ∧ s.clutActive = s₀.clutActive

theorem activeAsIn_stable : Stable (ActiveAsIn s₀) where
  sched _ _ hq h := ⟨hq h.1, h.2⟩
  raster _ _ hn h := absurd h.1 hn
  suspend s c h := by simpa [ActiveAsIn] using h
  finish s w v h := by simpa [ActiveAsIn] using h
  raise s c e i h := by simpa [ActiveAsIn] using h

theorem activeAsIn_writeStable (hi : i.reloads = false) : WriteStable i (ActiveAsIn s₀) where
  toStable := activeAsIn_stable
  takeLock _ _ h := h
  releaseLock _ _ h := h
  afterRead s r h := by simpa [ActiveAsIn] using h
  regWrite s r v h := by simpa [ActiveAsIn] using h
  reload hr := absurd hr (by simp [hi])
  drvState _ _ _ h := h
  waiter _ _ h := h
  ltdcOwner _ _ h := h
  setWake s a m h := by simpa [ActiveAsIn] using h
  addEvent _ _ _ h := h
  mapTop s f _ h := by simpa [ActiveAsIn] using h
  writeLe _ _ _ _ h := h

theorem activeAsIn_panelStable : PanelStable (ActiveAsIn s₀) where
  toStable := activeAsIn_stable
  pnlState _ _ h := h
  pnlCfg _ _ h := h
  pnlScratch _ _ h := h
  pnlOwner _ _ h := h
  cs _ _ h := h
  dcx _ _ h := h
  addWire _ _ _ h := h
  receive _ h := h
  mem _ _ h := h

/-- Settles O58: by the writes of the LTDC commands and handlers that make no reload, and of the panel commands. -/
theorem shadowWritesAreInvisible : Obligations.ShadowWritesAreInvisible := by
  intro i s t hi hs he
  have h₀ : ActiveAsIn s s := ⟨hs, rfl, rfl⟩
  cases hp : i.isPanel with
  | false => exact ((activeAsIn_writeStable hi).exec_keeps hp h₀ he).2
  | true => exact (activeAsIn_panelStable.exec_keeps hp h₀ he).2

end Sys2Proof.Machine
end

section
/-! PROOFS. O59: the driver's state (R32, R212). A command that writes it starts with a check of the one state it may be entered
from, and the handler checks before its write: from that state every state entered is on the path, and from another the check
fails before anything is written. -/

namespace Sys2Proof

/-- The one driver state from which a command or handler enters another (R200 to R206, R460). -/
def Instr.entersFrom : Instr → Machine.DrvState
  | .start _ => .stop
  | .stop _ => .ready
  | .startReload _ => .ready
  | .reloadWait _ => .ready
  | .eventIrq => .active
  | _ => .uninit

/-- Every state an instruction enters is a step of the path from the state it is entered from (R32). -/
theorem Instr.entersFrom_mayBecome {i : Instr} {d : Machine.DrvState} (h : i.enters d = true) :
    i.entersFrom.mayBecome d = true := by
  cases i with
  | init | start | stop | startReload | eventIrq =>
    simp only [Instr.enters, beq_iff_eq] at h
    subst h
    rfl
  | reloadWait =>
    simp only [Instr.enters, Bool.or_eq_true, beq_iff_eq] at h
    rcases h with rfl | rfl <;> rfl
  | _ => cases h

end Sys2Proof

namespace Sys2Proof.Machine

variable {P : State → Prop} {i : Instr} {d : DrvState} {k : Prog} {s t : State}

-- ==== runs whose check fails ====

/-- A micro-step that keeps `P`, what follows it accounted for where the micro-step completes. -/
theorem nextKeeps_micro (hS : Stable P) {m : State → Micro} {k : Word → Prog} (hm : ∀ s, P s → (m s).Keeps P)
    (hk : ∀ s r s', P s → m s = .ok r s' → NextKeeps P (run (k r))) : NextKeeps P (run (.micro m k)) := by
  intro c s t hs h
  simp only [run] at h
  split at h
  · rename_i s' hq
    cases h
    exact hS.suspend _ _ (turn_preempt_keeps hS hs hq)
  · rename_i s' hq
    have h' := turn_go_keeps hS hs hq
    have hm' := hm s' h'
    split at h
    · rename_i r s'' he
      rw [he] at hm'
      exact hk s' r s'' h' he _ _ _ hm' h
    · rename_i r s'' he
      rw [he] at hm'
      cases h
      exact hS.suspend _ _ hm'
    · cases h
      exact hS.suspend _ _ h'
    · cases h
      exact hS.raise _ _ _ _ h'
    · cases h

/-- What is done between two micro-steps writes nothing. -/
theorem nextKeeps_within {g : State → Word} {e : Int} {k : Word → Prog} (hk : ∀ r, NextKeeps P (run (k r))) :
    NextKeeps P (run (.within g e k)) := fun _ _ _ hs h => hk _ _ _ _ hs h

/-- A check that fails in every state with `P` keeps it, whatever stands after the check. -/
theorem nextKeeps_failing (hS : Stable P) {p : State → Bool} {code : FaultCode}
    (hp : ∀ s, P s → s.par.checks = true ∧ p s = false) : NextKeeps P (run (check p code k)) := by
  have hm (s : State) (hs : P s) : (if s.par.checks && !p s then Micro.raise code none else .ok 0 s) = .raise code none := by
    rw [(hp s hs).1, (hp s hs).2]
    rfl
  exact nextKeeps_micro hS (fun s hs => by rw [hm s hs]; trivial) fun s r s' hs he => by rw [hm s hs] at he; cases he

/-- A check, passed or not, keeps what the run after it keeps. -/
theorem nextKeeps_check (hS : Stable P) {p : State → Bool} {code : FaultCode} (hk : NextKeeps P (run k)) :
    NextKeeps P (run (check p code k)) :=
  nextKeeps_micro hS (keeps_check (k := .done .unit) trivial).1 fun _ _ _ _ _ => hk

theorem nextKeeps_act (hS : Stable P) {f : State → State} (hf : ∀ s, P s → P (f s)) (hk : NextKeeps P (run k)) :
    NextKeeps P (run (act f k)) :=
  nextKeeps_micro hS hf fun _ _ _ _ _ => hk

theorem nextKeeps_rd (hS : Stable P) (hR : RegStable P) {r : Reg} {k : Word → Prog} (hk : ∀ v, NextKeeps P (run (k v))) :
    NextKeeps P (run (rd r k)) :=
  nextKeeps_micro hS (fun s => hR.afterRead s r) fun _ _ _ _ _ => hk _

theorem nextKeeps_cfgRd (hS : Stable P) {off n : Nat} {k : Word → Prog} (hk : ∀ v, NextKeeps P (run (k v))) :
    NextKeeps P (run (cfgRd off n k)) :=
  nextKeeps_micro hS (keeps_cfgRd (k := fun _ => .done .unit) fun _ => trivial).1 fun _ _ _ _ _ => hk _

/-- The prologue of a command keeps what its core's run keeps (R143, R154). -/
theorem nextKeeps_dispatch (hS : Stable P) (hL : LockStable P) {cl : CmdClass} {core : Core}
    (hc : ∀ ret, NextKeeps P (run (core ret))) : NextKeeps P (run (dispatch i cl core)) := by
  have hlock : NextKeeps P (run (apiWrap core)) :=
    nextKeeps_micro hS (keeps_lockStep (k := .done .unit) hL trivial).1 fun _ _ _ _ _ => hc _
  refine nextKeeps_micro hS (keeps_dispatch (i := i) (cl := .init) (core := fun _ => .done .unit) nofun fun _ _ => trivial).1
    fun _ _ _ _ _ => ?_
  rcases cl with _ | _ | _ | (_ | _) | (_ | _)
  · exact hc _
  · exact hc _
  · exact nextKeeps_check hS (hc _)
  · exact nextKeeps_check hS hlock
  · exact nextKeeps_check hS (hc _)
  · exact nextKeeps_check hS hlock
  · exact nextKeeps_check hS (hc _)

theorem after_nil (p : Prog) : p.after [] = p := by cases p <;> rfl

/-- An agent whose cell has no log runs the whole pseudocode (R31). -/
theorem resume_keeps_fresh {c : Cell} {w : CmdWord} {p : Operands → Prog} (hc : s.curCell = some c) (hl : c.log = [])
    (hp : ∀ o, NextKeeps P (run (p o))) (hs : P s) (h : s.resume w p = .next t) : P t := by
  have hlog : (s.cellOf w).log = [] := by simpa only [State.cellOf, hc] using hl
  simp only [State.resume, hlog, List.reverse_nil, after_nil] at h
  exact hp _ _ _ _ hs h

-- ==== from the state it is entered from ====

/-- drv_state is `d` or one step of its path on. -/
def DrvFrom (d : DrvState) (s : State) : Prop := d.mayBecome s.drvState = true

theorem drvFrom_stable : Stable (DrvFrom d) where
  sched _ _ _ h := h
  raster s a _ h := by simpa [DrvFrom] using h
  suspend s c h := by simpa [DrvFrom] using h
  finish s w v h := by simpa [DrvFrom] using h
  raise s c e i h := by simpa [DrvFrom] using h

theorem drvFrom_writeStable (hd : ∀ e, i.enters e = true → d.mayBecome e = true) : WriteStable i (DrvFrom d) where
  toStable := drvFrom_stable
  takeLock _ _ h := h
  releaseLock _ _ h := h
  afterRead s r h := by simpa [DrvFrom] using h
  regWrite s r v h := by simpa [DrvFrom] using h
  reload _ := ⟨⟨fun _ h => h, fun _ h => h, fun _ _ h => h⟩, fun _ h => h, fun _ _ h => h, fun _ _ h => h, fun _ _ h => h,
    fun _ _ h => h⟩
  drvState _ e he _ := hd e he
  waiter _ _ h := h
  ltdcOwner _ _ h := h
  setWake s a m h := by simpa [DrvFrom] using h
  addEvent _ _ _ h := h
  mapTop s f _ h := by simpa [DrvFrom] using h
  writeLe _ _ _ _ h := h

theorem mayBecome_self (d : DrvState) : d.mayBecome d = true := by cases d <;> rfl

/-- An instruction all of whose entered states are on the path keeps to it. -/
theorem exec_mayBecome (hd : ∀ e, i.enters e = true → s.drvState.mayBecome e = true) (he : exec i s = .next t) :
    s.drvState.mayBecome t.drvState = true := by
  cases hp : i.isPanel with
  | false => exact (drvFrom_writeStable hd).exec_keeps hp (mayBecome_self _) he
  | true =>
    have ht : t.drvState = s.drvState := ((panelAndLtdcApart i s t he).2 hp).1
    rw [ht]
    exact mayBecome_self _

-- ==== from another state ====

/-- The build has CHECKS, and drv_state is `d`. -/
def CheckedIn (d : DrvState) (s : State) : Prop := s.par.checks = true ∧ s.drvState = d

theorem checkedIn_stable : Stable (CheckedIn d) where
  sched _ _ _ h := h
  raster s a _ h := by simpa [CheckedIn] using h
  suspend s c h := by simpa [CheckedIn] using h
  finish s w v h := by simpa [CheckedIn] using h
  raise s c e i h := by simpa [CheckedIn] using h

theorem checkedIn_lockStable : LockStable (CheckedIn d) := ⟨fun _ _ h => h, fun _ _ h => h⟩

theorem checkedIn_regStable : RegStable (CheckedIn d) where
  afterRead s r h := by simpa [CheckedIn] using h
  regWrite s r v h := by simpa [CheckedIn] using h

/-- The check of a state that drv_state is not in. -/
theorem wrongState_keeps {e : DrvState} {code : FaultCode} (hd : d ≠ e) :
    NextKeeps (CheckedIn d) (run (check (fun s => s.drvState == e) code k)) :=
  nextKeeps_failing checkedIn_stable fun _ h => ⟨h.1, by rw [h.2]; exact beq_eq_false_iff_ne.2 hd⟩

/-- The core of a command that enters a state, started in a state it is not entered from, comes to its failing check. -/
theorem coreOf_blocked {e : DrvState} {w : Bool} {o : Operands} (he : i.enters e = true) (hi : i ≠ .eventIrq)
    (hd : d ≠ i.entersFrom) (ret : ResultVal → Prog) : NextKeeps (CheckedIn d) (run (i.coreOf w o ret)) := by
  cases i with
  | init | start | stop | startReload => exact wrongState_keeps hd
  | reloadWait => exact nextKeeps_check checkedIn_stable (wrongState_keeps hd)
  | eventIrq => exact absurd rfl hi
  | _ => cases he

/-- The reload-done path of the event handler outside ACTIVE: its check fails under the critical section (R460). -/
theorem completeReload_blocked (hd : d ≠ .active) : NextKeeps (CheckedIn d) (run (completeReload k)) :=
  nextKeeps_act checkedIn_stable (fun s h => by simpa [CheckedIn] using h) (wrongState_keeps hd)

theorem callback_keepsChecked {kind : CbKind} {cb : Word} (hk : NextKeeps (CheckedIn d) (run k)) :
    NextKeeps (CheckedIn d) (run (callback kind cb k)) := by
  refine nextKeeps_act checkedIn_stable (fun _ h => h) <| nextKeeps_micro checkedIn_stable (fun s h => ?_) fun _ _ _ _ _ => hk
  split
  · exact h
  · simpa [Micro.Keeps, CheckedIn] using h

theorem whenFlag_keeps {sample flag : Word} {size : Int} {body : Prog → Prog} (hb : NextKeeps P (run (body k)))
    (hk : NextKeeps P (run k)) : NextKeeps P (run (whenFlag sample flag size body k)) := by
  unfold whenFlag
  split
  · exact hb
  · exact nextKeeps_within fun _ => hk

/-- EVENT_IRQ outside ACTIVE (R460): the line path leaves the state, and the reload-done path does not pass its check. -/
theorem eventIrqBody_blocked (hd : d ≠ .active) : NextKeeps (CheckedIn d) (run eventIrqBody) := by
  have hdone : NextKeeps (CheckedIn d) (run (.done .unit)) := run_keeps checkedIn_stable trivial
  have hreload (sample : Word) :
      NextKeeps (CheckedIn d) (run (whenFlag sample flagReload reloadDoneSize reloadDone (.done .unit))) := by
    refine whenFlag_keeps (nextKeeps_cfgRd checkedIn_stable fun cb => ?_) hdone
    split
    · exact nextKeeps_within fun _ => completeReload_blocked hd
    · exact callback_keepsChecked (completeReload_blocked hd)
  exact nextKeeps_rd checkedIn_stable checkedIn_regStable fun i => nextKeeps_rd checkedIn_stable checkedIn_regStable fun e =>
    whenFlag_keeps
      (nextKeeps_cfgRd checkedIn_stable fun _ => nextKeeps_check checkedIn_stable <|
        nextKeeps_micro checkedIn_stable (keeps_crashCheck (k := .done .unit) trivial).1 fun _ _ _ _ _ =>
        callback_keepsChecked <| nextKeeps_rd checkedIn_stable checkedIn_regStable fun _ =>
        nextKeeps_act checkedIn_stable (fun s => checkedIn_regStable.regWrite s _ _) (hreload _))
      (hreload _)

/-- An instruction that enters a state, started in a state it is not entered from, leaves drv_state as it is. -/
theorem exec_blocked {e : DrvState} {c : Cell} (hk : s.par.checks = true) (hc : s.curCell = some c) (hl : c.log = [])
    (he : i.enters e = true) (hd : s.drvState ≠ i.entersFrom) (h : exec i s = .next t) : t.drvState = s.drvState := by
  have hs : CheckedIn s.drvState s := ⟨hk, rfl⟩
  by_cases hi : i = .eventIrq
  · subst hi
    change handler .eventIrq .event eventIrqBody s = .next t at h
    unfold handler at h
    split at h
    · exact (resume_keeps_fresh hc hl (fun _ => eventIrqBody_blocked hd) hs h).2
    · exact (resume_keeps checkedIn_stable (fun _ => keeps_raiseIllegal) hs h).2
  · obtain ⟨cl, hcl⟩ : ∃ cl, i.cls = some cl := by
      refine Option.ne_none_iff_exists'.1 fun hn => ?_
      rcases cls_none_iff.1 hn with rfl | rfl
      · exact hi rfl
      · cases he
    rw [exec_eq_command s hcl] at h
    exact (resume_keeps_fresh hc hl
      (fun o => nextKeeps_dispatch checkedIn_stable checkedIn_lockStable (coreOf_blocked he hi hd)) hs h).2

/-- Settles O59: an instruction that enters a state does so from the one state it is entered from. -/
theorem driverStatePath : Obligations.DriverStatePath := by
  intro i s t c hk _ hc hl h
  by_cases hb : (∃ e, i.enters e = true) ∧ s.drvState ≠ i.entersFrom
  · obtain ⟨⟨e, he⟩, hd⟩ := hb
    rw [exec_blocked hk hc hl he hd h]
    exact mayBecome_self _
  · refine exec_mayBecome (fun e he => ?_) h
    have hd : s.drvState = i.entersFrom := Classical.not_not.1 fun hd => hb ⟨⟨e, he⟩, hd⟩
    exact hd ▸ Instr.entersFrom_mayBecome he

end Sys2Proof.Machine
end

section
/-! PROOFS. O7: a thread's own lock() and unlock() (R36). -/

namespace Sys2Proof.Machine

variable {s : State} {t : Nat} {rest : List Item}

/-- An IDLE thread with its own lock() next takes the lock (R36). -/
theorem runThread_lock (hc : (s.threadAt s.cur).prog = none) (hp : (s.threadAt s.cur).program = .lock :: rest) :
    s.runThread = .next { (s.dropItem rest).takeLock s.cur with sched := s.sched.tail } := by
  simp only [State.runThread, hc, hp]

/-- An IDLE thread with its own unlock() next gives the lock up (R36). -/
theorem runThread_unlock (hc : (s.threadAt s.cur).prog = none) (hp : (s.threadAt s.cur).program = .unlock :: rest) :
    s.runThread = .next { (s.dropItem rest).releaseLock s.cur with sched := s.sched.tail } := by
  simp only [State.runThread, hc, hp]

/-- An IDLE thread with its own lock() next has no step while the lock has a holder (R36). -/
theorem not_runnable_of_lock (hc : (s.threadAt t).prog = none) (hp : (s.threadAt t).program = .lock :: rest)
    (hl : s.lockHolder ≠ none) : s.runnable t = false := by
  have hn : s.lockHolder.isNone = false := isNone_eq_false_of_ne_none hl
  unfold State.runnable
  cases hg : s.threads[t]? with
  | none => exact Bool.and_false _
  | some th =>
    have hth : s.threadAt t = th := by simp [State.threadAt, List.getD_eq_getElem?_getD, hg]
    rw [hth] at hc hp
    simp only [hc, hp, hn, Bool.and_false]

/-- Settles O7: the step is the moving thread's, its item dropped and the lock taken or given up in one. -/
theorem ownLockAndUnlock : Obligations.OwnLockAndUnlock := by
  intro s t rest hc
  refine ⟨fun hm hp => ?_, fun hm hp => ?_, not_runnable_of_lock hc⟩
  · rw [step_thread hm, runThread_lock (s := s.switchTo t) hc hp]
    simp only [State.takeLock, State.dropItem, State.setThread, State.switchTo, List.modify_modify_eq]
    rfl
  · rw [step_thread hm, runThread_unlock (s := s.switchTo t) hc hp]
    simp only [State.releaseLock, State.dropItem, State.setThread, State.switchTo, List.modify_modify_eq]
    rfl

end Sys2Proof.Machine
end

section
/-! PROOFS. O8, O11, O23: what taking a fault, power-on and a commit leave (R38, R68, R83, R452, R500). -/

namespace Sys2Proof.Machine

variable {s : State}

/-- With the fault mark set no agent moves (R452). -/
theorem step_halted (h : s.fault ≠ none) : step s = .fault .halted := by
  rw [step, State.advance, if_pos (Option.isSome_iff_ne_none.2 h)]

/-- Settles O8: keeping the cell leaves the history, to which `raise` adds FAULT. -/
theorem faultEntryAndHalt : Obligations.FaultEntryAndHalt := by
  refine fun s => ⟨fun c e info => ?_, step_halted⟩
  rw [State.raise, State.addEvent, State.suspend_events]

/-- Settles O11: the cells of the reset state whose value the spec states. -/
theorem powerOnState : Obligations.PowerOnState := by
  refine ⟨rfl, rfl, rfl, rfl, rfl, rfl, rfl, rfl, rfl, rfl, fun th hth => ?_⟩
  obtain rfl : th = .idle := List.mem_singleton.1 hth
  exact ⟨rfl, rfl, rfl⟩

/-- A request bit survives the cut to both request bits. -/
theorem hasBits_and_of_subset {v m b : Word} (h : m &&& b = b) : hasBits (v &&& m) b = hasBits v b := by
  rw [hasBits, hasBits, BitVec.and_assoc, h]

/-- Settles O23: the commit's cells, its two request bits read from SRCR itself. -/
theorem commitMakesShadowsLive : Obligations.CommitMakesShadowsLive := by
  refine fun s => ⟨rfl, rfl, rfl, rfl, rfl, rfl, ?_⟩
  have hv : hasBits (s.srcr &&& 0x3) srcrVbr = hasBits s.srcr 2 := hasBits_and_of_subset (by decide)
  have hi : hasBits (s.srcr &&& 0x3) srcrImr = hasBits s.srcr 1 := hasBits_and_of_subset (by decide)
  simp only [State.commit, hv, hi]
  rfl

end Sys2Proof.Machine
end

section
/-! PROOFS. O16: when a vector is delivered (R39, R426, R458). -/

namespace Sys2Proof.Machine

variable {s : State} {v : Vec}

/-- R458 (d): the running handler, if any, is less urgent and outside its critical section. -/
theorem preempts_iff : s.preempts v = true ↔ ∀ a ∈ s.irq.head?, s.prio v < s.prio a.vec ∧ a.crit = false := by
  unfold State.preempts
  cases s.irq <;> simp

/-- R458 (c): no activation is the vector's. -/
theorem handlerRuns_eq_false_iff : s.handlerRuns v = false ↔ ∀ a ∈ s.irq, a.vec ≠ v := by
  simp [State.handlerRuns, List.any_eq_false]

/-- R458 (a) to (d) for one vector. -/
theorem canDeliver_iff : s.canDeliver v = true ↔ s.fault = none ∧ s.lockHolder = none ∧ s.pending v = true
    ∧ (∀ a ∈ s.irq, a.vec ≠ v) ∧ ∀ a ∈ s.irq.head?, s.prio v < s.prio a.vec ∧ a.crit = false := by
  simp only [State.canDeliver, Bool.and_eq_true, Bool.not_eq_true', Option.isNone_iff_eq_none, preempts_iff,
    handlerRuns_eq_false_iff, and_assoc]

/-- nvic_ev_pend (R39, R426). -/
theorem pending_event_iff : s.pending .event = true ↔ s.nvicEv = true ∧ s.isr &&& s.ier &&& 0x9 ≠ 0 := by
  simp only [State.pending, State.evReq, hasBits, Bool.and_eq_true, bne_iff_ne]

/-- nvic_er_pend (R39, R426). -/
theorem pending_error_iff : s.pending .error = true ↔ s.nvicEr = true ∧ s.isr &&& s.ier &&& 0x6 ≠ 0 := by
  simp only [State.pending, State.erReq, hasBits, Bool.and_eq_true, bne_iff_ne]

/-- The more urgent vector goes first, the event vector on a tie (R458, D48). -/
theorem outranks_iff {v w : Vec} : s.outranks v w = true ↔ s.prio v < s.prio w ∨ (s.prio v = s.prio w ∧ v = .event) := by
  simp only [State.outranks, Bool.or_eq_true, Bool.and_eq_true, decide_eq_true_eq, beq_iff_eq]

theorem outranks_error_iff : s.outranks .error .event = true ↔ s.par.erPrio < s.par.evPrio := by
  simp only [outranks_iff, reduceCtorEq, and_false, or_false]
  rfl

theorem outranks_event_iff : s.outranks .event .error = true ↔ s.par.evPrio ≤ s.par.erPrio := by
  rw [outranks_iff, Nat.le_iff_lt_or_eq]
  simp only [and_true]
  rfl

theorem deliverable_iff : s.deliverable v = true
    ↔ s.canDeliver v = true ∧ ¬(s.canDeliver v.other = true ∧ s.outranks v.other v = true) := by
  simp only [State.deliverable, Bool.and_eq_true, Bool.not_eq_true', Bool.and_eq_false_iff,
    Classical.not_and_iff_not_or_not, Bool.not_eq_true]

/-- Settles O16: the conditions for one vector, the request lines of each, and the order of the two. -/
theorem deliveryConditions : Obligations.DeliveryConditions := by
  intro s
  refine ⟨?_, ?_, ?_, ?_⟩
  · rw [canDeliver_iff, pending_event_iff, and_assoc]
    rfl
  · rw [canDeliver_iff, pending_error_iff, and_assoc]
    rfl
  · rw [deliverable_iff, Vec.other, outranks_error_iff]
  · rw [deliverable_iff, Vec.other, outranks_event_iff]

end Sys2Proof.Machine
end

section
/-! PROOFS. O26 and O27: what is packed is read back (R54, R55, R62, R149, R150, R315, R316). A packed word has a field at bit 16 and
one at bit 0, neither wider than 16 bits; each is read back whole. -/

namespace Sys2Proof.Machine

variable {n m : Nat} {x y : Word}

theorem toNat_mask (hn : n ≤ 16) : (Config.mask n).toNat = 2 ^ n - 1 := by
  have hp : 2 ^ n ≤ 2 ^ 16 := Nat.pow_le_pow_right (by decide) hn
  rw [Config.mask, BitVec.toNat_ofNat]
  omega

/-- A field of `n` bits holds the value modulo `2 ^ n` (R12). -/
theorem toNat_trunc (hn : n ≤ 16) (x : Word) : (trunc n x).toNat = x.toNat % 2 ^ n := by
  rw [trunc, BitVec.toNat_and, toNat_mask hn, Nat.and_two_pow_sub_one_eq_mod]

theorem toNat_trunc_lt (hn : n ≤ 16) (x : Word) : (trunc n x).toNat < 2 ^ 16 := by
  rw [toNat_trunc hn]
  exact Nat.lt_of_lt_of_le (Nat.mod_lt _ (Nat.two_pow_pos n)) (Nat.pow_le_pow_right (by decide) hn)

/-- A value that fits its field is not cut. -/
theorem trunc_of_lt (hn : n ≤ 16) (hx : x.toNat < 2 ^ n) : trunc n x = x :=
  BitVec.eq_of_toNat_eq (by rw [toNat_trunc hn, Nat.mod_eq_of_lt hx])

/-- Two fields side by side, as a number. -/
theorem toNat_packed (hn : n ≤ 16) (hm : m ≤ 16) :
    ((trunc n x <<< 16) ||| trunc m y).toNat = (trunc n x).toNat * 2 ^ 16 + (trunc m y).toNat := by
  have hx := toNat_trunc_lt hn x
  have hy := toNat_trunc_lt hm y
  have hs : (trunc n x <<< 16).toNat = (trunc n x).toNat <<< 16 := by
    rw [BitVec.toNat_shiftLeft, Nat.mod_eq_of_lt (by rw [Nat.shiftLeft_eq]; omega)]
  rw [BitVec.toNat_or, hs, ← Nat.shiftLeft_add_eq_or_of_lt hy, Nat.shiftLeft_eq]

/-- The field at bit 16 of a packed word. -/
theorem field_packed_high (hn : n ≤ 16) (hm : m ≤ 16) : field ((trunc n x <<< 16) ||| trunc m y) 16 n = trunc n x := by
  have hy := toNat_trunc_lt hm y
  have hs : ((trunc n x <<< 16) ||| trunc m y) >>> 16 = trunc n x :=
    BitVec.eq_of_toNat_eq (by rw [BitVec.toNat_ushiftRight, toNat_packed hn hm, Nat.shiftRight_eq_div_pow]; omega)
  rw [field, hs]
  exact and_mask_twice x _

/-- The field at bit 0 of a packed word. -/
theorem field_packed_low (hn : n ≤ 16) (hm : m ≤ 16) : field ((trunc n x <<< 16) ||| trunc m y) 0 m = trunc m y := by
  apply BitVec.eq_of_toNat_eq
  have hdvd : 2 ^ m ∣ (trunc n x).toNat * 2 ^ 16 := Nat.dvd_mul_left_of_dvd (Nat.pow_dvd_pow 2 hm) _
  show (trunc m (((trunc n x <<< 16) ||| trunc m y) >>> 0)).toNat = _
  rw [BitVec.ushiftRight_zero, toNat_trunc hm, toNat_packed hn hm, Nat.add_mod, Nat.mod_eq_zero_of_dvd hdvd, Nat.zero_add,
    Nat.mod_mod, toNat_trunc hm, Nat.mod_mod]

/-- Settles O26: the pitch at bit 16, the length plus 3 at bit 0. -/
theorem lineLengthUnpacks : Obligations.LineLengthUnpacks := by
  intro p n hn hp
  have hlen : (n + 3).toNat < 2 ^ Config.llbits := by
    have h8188 : n ≤ 8188#32 := hn
    show (n + 3).toNat < 8192
    bv_omega
  have hpack : packCfblr p n = (trunc Config.pitchBits p <<< 16) ||| trunc Config.llbits (n + 3) := rfl
  constructor
  · rw [cfbp, hpack, field_packed_high (by decide) (by decide), trunc_of_lt (by decide) hp]
  · rw [lineBytes, cfbll, hpack, field_packed_low (by decide) (by decide), trunc_of_lt (by decide) hlen]
    exact BitVec.add_sub_cancel n 3

/-- A window's bound read back from its register, relative to the active window (R315, R316). -/
theorem relative_absolute (hn : n ≤ 16) {w a : Word} (h : (w + a).toNat < 2 ^ n) : trunc n (w + a) - a = w := by
  rw [trunc_of_lt hn h, BitVec.add_sub_cancel]

/-- Settles O27: each of the four bounds is a field that its absolute value fits. -/
theorem windowReadsBack : Obligations.WindowReadsBack := by
  intro a r w hhs hhe hvs hve
  have hh {x : Word} (h : x ≤ 4095) : x.toNat < 2 ^ Config.hbits := Nat.lt_succ_of_le (BitVec.le_def.1 h)
  have hv {x : Word} (h : x ≤ 2047) : x.toNat < 2 ^ Config.vbits := Nat.lt_succ_of_le (BitVec.le_def.1 h)
  have hb : Config.hbits ≤ 16 := by decide
  have vb : Config.vbits ≤ 16 := by decide
  simp only [windowOf, LayerRegs.withWindow, whst, whsp, wvst, wvsp, packWh, packWv, field_packed_high hb hb,
    field_packed_low hb hb, field_packed_high vb vb, field_packed_low vb vb, relative_absolute hb (hh hhs),
    relative_absolute hb (hh hhe), relative_absolute vb (hv hvs), relative_absolute vb (hv hve)]

end Sys2Proof.Machine
end

section
/-! PROOFS. O31, O35 to O39, O44: the class I commands of more than one register or check (R205, R261 to R265, R305, R306, R315 to
R317, R325, R326, R335, R336). Each core is run by the rules of its parts to its return, whoever holds the lock. -/

namespace Sys2Proof.Machine

variable {s : State} {E : Cell → Out → Prop} {k : Prog} {l : Layer} {c : Form} {o : Operands} {p q : Word}

-- ==== the global setters, and START_RELOAD ====

theorem setGlobalFlags_completes (hm : s.MayRunI c) (hi : s.Issued (.setGlobalFlags c) o) :
    Completes (.setGlobalFlags c) s { s with shadow := { s.shadow with gcr := gcrWithFlags s.shadow.gcr o.x } } .unit := by
  refine completes_intSafe rfl hm hi (fun ret ths lk E hk => ends_rdReg nofun hi.1 <| ends_wr hi.1 ?_) rfl rfl rfl hi.1
  rw [regWrite_gcr]
  refine (congrArg (fun g => (ret .unit).Ends { (s.withLock ths lk) with shadow := { s.shadow with gcr := g } } E) ?_).mpr hk
  exact gcr_flags _ _

theorem setClearColor_completes (hm : s.MayRunI c) (hi : s.Issued (.setClearColor c) o) :
    Completes (.setClearColor c) s { s with shadow := { s.shadow with bccr := o.x &&& 0x00FFFFFF#32 } } .unit := by
  refine completes_intSafe rfl hm hi (fun ret ths lk E hk => ends_wr hi.1 ?_) rfl rfl rfl hi.1
  rw [regWrite_bccr, rgb24, and_mask_twice]
  exact hk

theorem setLinePos_completes (hm : s.MayRunI c) (hi : s.Issued (.setLinePos c) o) (hp : s.Passes (decide (o.x ≤ 0x7FF))) :
    Completes (.setLinePos c) s { s with lipcr := o.x &&& 0x7FF#32 } .unit := by
  refine completes_intSafe rfl hm hi (fun ret ths lk E hk => ends_checkB hi.1 hp <| ends_wr hi.1 ?_) rfl rfl rfl hi.1
  rw [regWrite_lipcr, vbitsMask_eq, and_mask_twice]
  exact hk

/-- Settles O31: a read and a write, a write, a check and a write. -/
theorem globalSettersComplete : Obligations.GlobalSettersComplete :=
  fun _ _ _ hm => ⟨setGlobalFlags_completes hm, setClearColor_completes hm, setLinePos_completes hm⟩

/-- Settles O44: the check, ACTIVE, the request. -/
theorem startReloadCompletes : Obligations.StartReloadCompletes := by
  intro c o s hm hi hd
  have hb : requestBit o.x &&& 0x3 = if o.x = 0 then 0x2 else 0x1 := by
    rw [requestBit_eq]
    split <;> rfl
  refine completes_intSafe rfl hm hi (fun ret ths lk E hk => ends_check hi.1 hd <| ends_act hi.1 <| ends_wr hi.1 ?_) rfl rfl rfl
    hi.1
  rw [regWrite_srcr, hb]
  exact hk

-- ==== palette ====

/-- An index within the palette, as the operand's check and as a slot (R148, R305). -/
theorem setPaletteEntry_completes (hm : s.MayRunI c) (hr : s.Passes ((s.lay l).cr &&& 1 == 0))
    (hi : s.Issued (.setPaletteEntry l c) o) (hx : s.Passes (decide (o.x < 256))) :
    Completes (.setPaletteEntry l c) s
      (s.putPalette l ((s.clutShadow.layer l).setIfInBounds (o.x.toNat % 256) (o.y.truncate 24))) .unit := by
  have hb : (!hasBits (s.lay l).cr crLen) = ((s.lay l).cr &&& 1 == 0) := by simp [hasBits, crLen, bne]
  refine completes_intSafe rfl hm hi (fun ret ths lk E hk => ends_rd hi.1 <| ends_checkB hi.1 (hb ▸ hr) <|
    ends_checkB hi.1 hx <| ends_wr hi.1 ?_) rfl rfl rfl hi.1
  have hslot : clutSlot (packClut o.x o.y) = o.x.toNat % 256 := by
    rw [← clutSlot_packClut, BitVec.ofNat_toNat, BitVec.setWidth_eq]
  rw [regWrite_clutwr, State.writeClut, hslot, clutColour_packClut]
  exact hk

theorem setPalette_completes (hm : s.MayRunI c) (hr : s.Passes ((s.lay l).cr &&& 1 == 0)) (hi : s.Issued (.setPalette l c) o)
    (hn : s.Passes (decide (o.y ≤ 256))) (hp : o.y = 0 ∨ (o.x ≠ 0 ∧ aligned4 o.x = true)) :
    Completes (.setPalette l c) s (s.putPalette l (loadedPalette s.mem o.x o.y.toNat (s.clutShadow.layer l))) .unit :=
  completes_intSafe rfl hm hi (fun _ _ _ _ hk => applyPalette_loads hi.1 hr hn hp hk) rfl rfl rfl hi.1

/-- Settles O35: one entry, and the loader. -/
theorem paletteCommandsComplete : Obligations.PaletteCommandsComplete :=
  fun _ _ _ _ hm hr => ⟨setPaletteEntry_completes hm hr, setPalette_completes hm hr⟩

-- ==== window ====

/-- A window record is written, `w` bytes into the record at `q` (R315). -/
theorem getWindowTo_ends {w : Nat} (h : s.sched = []) (ha : aligned4 q = true) (hq : q + BitVec.ofNat 32 w ≠ 0)
    (hk : k.Ends { s with mem := s.mem.putWindow (q + BitVec.ofNat 32 w) (windowOf s.activeWindow (s.lay l)) } E) :
    (getWindowTo l q w k).Ends s E := by
  refine ends_rd h <| ends_rd h <| ends_look <| ends_look <| ends_crashCheck h (bne_iff_ne.2 hq) <|
    ends_memWr h ha <| ends_memWr h ha <| ends_memWr h ha <| ends_memWr h ha ?_
  simp only [BitVec.ofNat_add, ← BitVec.add_assoc]
  rw [show BitVec.ofNat 32 0 = 0#32 from rfl, BitVec.add_zero]
  exact hk

theorem getWindow_completes (hm : s.MayRunI c) (hi : s.Issued (.getWindow l c) o) (h0 : o.x ≠ 0) (ha : aligned4 o.x = true) :
    Completes (.getWindow l c) s { s with mem := s.mem.putWindow o.x (windowOf s.activeWindow (s.lay l)) } .unit := by
  have hx : o.x + BitVec.ofNat 32 0 = o.x := BitVec.add_zero _
  refine completes_intSafe rfl hm hi (fun ret ths lk E hk => ends_checkB hi.1 (.inr (bne_iff_ne.2 h0)) <|
    getWindowTo_ends hi.1 ha (hx.symm ▸ h0) ?_) rfl rfl rfl hi.1
  rw [hx]
  exact hk

theorem setWindow_completes (hm : s.MayRunI c) (hi : s.Issued (.setWindow l c) o) (h0 : o.x ≠ 0) (ha : aligned4 o.x = true)
    (hw : s.Passes (windowOk s.activeWindow (windowAt s.mem o.x))) :
    Completes (.setWindow l c) s (s.putLayer l ((s.lay l).withWindow s.activeWindow (windowAt s.mem o.x))) .unit := by
  have hx : o.x + BitVec.ofNat 32 0 = o.x := BitVec.add_zero _
  refine completes_intSafe rfl hm hi (fun ret ths lk E hk => ends_checkB hi.1 (.inr (bne_iff_ne.2 h0)) <|
    readWindow_ends hi.1 ha (hx.symm ▸ h0) ?_) rfl rfl rfl hi.1
  rw [hx]
  exact applyWindow_ends hi.1 hw hk

theorem setInvalidWindow_completes (hm : s.MayRunI c) (hi : s.Issued (.setInvalidWindow l c) o)
    (hw : s.Passes (windowOk s.activeWindow ⟨0, 0, 0, 0⟩)) :
    Completes (.setInvalidWindow l c) s (s.putLayer l ((s.lay l).withWindow s.activeWindow ⟨0, 0, 0, 0⟩)) .unit :=
  completes_intSafe rfl hm hi (fun _ _ _ _ hk => applyWindow_ends hi.1 hw hk) rfl rfl rfl hi.1

/-- Settles O36: the record written, the record read and applied, the invalid window applied. -/
theorem windowCommandsComplete : Obligations.WindowCommandsComplete :=
  fun _ _ _ _ hm => ⟨getWindow_completes hm, setWindow_completes hm, setInvalidWindow_completes hm⟩

-- ==== frame ====

theorem getFrame_completes (hm : s.MayRunI c) (h0 : o.x ≠ 0) (ha : aligned4 o.x = true) (hi : s.Issued (.getFrame l c) o) :
    Completes (.getFrame l c) s { s with mem := s.mem.putFrame o.x (frameOf (s.lay l)) } .unit :=
  completes_intSafe rfl hm hi (fun _ _ _ _ hk => ends_checkB hi.1 (.inr (bne_iff_ne.2 h0)) <|
    getFrameTo_ends hi.1 ha h0 hk) rfl rfl rfl hi.1

theorem setFrame_completes (hm : s.MayRunI c) (h0 : o.x ≠ 0) (ha : aligned4 o.x = true) (hi : s.Issued (.setFrame l c) o)
    (hn : s.cfg ≠ 0) (hca : aligned4 s.cfg = true)
    (hf : s.Passes (frameOk (s.mem.readLe s.cfg 2) (s.mem.readLe (s.cfg + 2) 2) (frameAt s.mem o.x))) :
    Completes (.setFrame l c) s (s.putLayer l ((s.lay l).withFrame (frameAt s.mem o.x))) .unit :=
  completes_intSafe rfl hm hi (fun _ _ _ _ hk => ends_checkB hi.1 (.inr (bne_iff_ne.2 h0)) <|
    readFrame_ends hi.1 ha h0 <| applyFrame_ends hi.1 hn hca hf hk) rfl rfl rfl hi.1

/-- Settles O37: the record written, the record read and applied. -/
theorem frameCommandsComplete : Obligations.FrameCommandsComplete :=
  fun _ _ _ _ hm h0 ha => ⟨getFrame_completes hm h0 ha, setFrame_completes hm h0 ha⟩

-- ==== whole layer ====

/-- Host memory replaced. -/
def State.withMem (s : State) (m : Mem) : State := { s with mem := m }

theorem ends_rd_withMem {m : Mem} {r : LReg} {k : Word → Prog} (h : s.sched = [])
    (hk : (k ((s.lay l).get r)).Ends (s.withMem m) E) : (rd (.lay l r) k).Ends (s.withMem m) E :=
  ends_rd (s := s.withMem m) h hk

theorem ends_memWr_withMem {m : Mem} {off n : Nat} {v : Word} (h : s.sched = []) (ha : aligned4 q = true)
    (hk : k.Ends (s.withMem (m.writeLe (q + BitVec.ofNat 32 off) n v)) E) : (memWr q off n v k).Ends (s.withMem m) E :=
  ends_memWr (s := s.withMem m) h ha hk

/-- What GET_LAYER does once the frame and the window are written (R335). -/
def getLayerFields (l : Layer) (q : Word) (k : Prog) : Prog :=
  rd (.lay l .dccr) fun d =>
  memWr q 24 4 d <|
  rd (.lay l .ckcr) fun ck =>
  memWr q 28 4 (ck &&& 0x00FFFFFF#32) <|
  rd (.lay l .cacr) fun ca =>
  memWr q 32 1 (ca &&& 0xFF) <|
  memWr q 34 2 0 <|
  memWr q 36 4 0 <|
  rd (.lay l .bfcr) fun bf =>
  memWr q 40 4 (bf &&& 0x0707) <|
  rd (.lay l .cr) fun cr =>
  memWr q 44 4 (cr &&& layerFlagMask) <|
  k

/-- Host memory after these fields are written at `q` (R73, R335). -/
def Mem.putLayerFields (m : Mem) (q : Word) (r : LayerRegs) : Mem :=
  (((((((m.writeLe (q + 24) 4 r.dccr).writeLe (q + 28) 4 (r.ckcr &&& 0x00FFFFFF#32)).writeLe
    (q + 32) 1 (r.cacr &&& 0xFF)).writeLe (q + 34) 2 0).writeLe (q + 36) 4 0).writeLe
    (q + 40) 4 (r.bfcr &&& 0x0707)).writeLe (q + 44) 4 (r.cr &&& 0x13))

theorem getLayerFields_ends {m : Mem} (h : s.sched = []) (ha : aligned4 q = true)
    (hk : k.Ends (s.withMem (m.putLayerFields q (s.lay l))) E) : (getLayerFields l q k).Ends (s.withMem m) E :=
  ends_rd_withMem h <| ends_memWr_withMem h ha <| ends_rd_withMem h <| ends_memWr_withMem h ha <| ends_rd_withMem h <|
    ends_memWr_withMem h ha <| ends_memWr_withMem h ha <| ends_memWr_withMem h ha <| ends_rd_withMem h <|
    ends_memWr_withMem h ha <| ends_rd_withMem h <| ends_memWr_withMem h ha hk

/-- GET_LAYER's core writes the whole record: the frame, the window, the fields after them (R335). -/
theorem getLayerCore_ends {ret : ResultVal → Prog} {m : Mem} (h : s.sched = []) (h0 : q ≠ 0) (h16 : q + 16 ≠ 0)
    (ha : aligned4 q = true) (hm : s.mem.putLayerSpec q s.activeWindow (s.lay l) = m) (hk : (ret .unit).Ends (s.withMem m) E) :
    (getLayerCore l q ret).Ends s E := by
  refine ends_checkB h (.inr (bne_iff_ne.2 h0)) <| getFrameTo_ends h ha h0 ?_
  change Prog.Ends _ (s.withMem (s.mem.putFrame q (frameOf (s.lay l)))) E
  generalize hf : s.mem.putFrame q (frameOf (s.lay l)) = mf
  refine getWindowTo_ends (s := s.withMem mf) h ha h16 ?_
  change Prog.Ends (getLayerFields l q _) (s.withMem (mf.putWindow (q + 16) (windowOf s.activeWindow (s.lay l)))) E
  refine getLayerFields_ends h ha ?_
  subst hf hm
  exact hk

/-- Settles O38: the check, and the record. -/
theorem getLayerCompletes : Obligations.GetLayerCompletes := by
  intro l c o s hm hi h0 h16 ha
  generalize hrec : s.mem.putLayerSpec o.x s.activeWindow (s.lay l) = m
  exact completes_intSafe rfl hm hi (fun ret ths lk E hk => getLayerCore_ends (s := s.withLock ths lk) hi.1 h0 h16 ha hrec hk)
    rfl rfl rfl hi.1

/-- Settles O39: the whole-layer write. -/
theorem setLayerCompletes : Obligations.SetLayerCompletes := by
  intro l c o s hm hi hp hn ha hok
  have hs := putSpec_eq (s := s) (l := l) (specAt s.mem o.x)
  refine completes_intSafe rfl hm hi (fun ret ths lk E hk => setLayerTo_writes hi.1 hp hn ha hok ?_) ?_ ?_
    (putSpec_cur _) ((putSpec_sched _).trans hi.1)
  · exact (putSpec_withLock _ ths lk).symm ▸ hk
  · rw [hs]
  · rw [hs]

end Sys2Proof.Machine
end

section
/-! PROOFS. O41 and O50: INIT and the panel's single-byte transfers (R79, R200, R381, R389 to R391, R501). -/

namespace Sys2Proof.Machine

variable {s : State} {i : Instr} {o : Operands}

/-- Settles O41: the check and the writes R200 lists. -/
theorem initCompletes : Obligations.InitCompletes := fun _ _ hi hd =>
  completes_of_initCore rfl hi <| ends_check hi.1 hd <| ends_act hi.1 <| ends_act hi.1 <| ends_act hi.1 <| ends_act hi.1 <|
    ends_act hi.1 <| ends_act hi.1 done_returns

/-- A byte sent from the scratch byte with D/CX at `d` (R389, R390). -/
theorem sendByte_completes {d : DcxLevel} {b : Byte} (hc : i.cls = some .api) (hp : i.isPanel = true)
    (hcore : i.coreOf s.par.useWait o = sendByte d b) (hx : s.Passes (s.ctx == .thread)) (hs : s.Passes (s.pnlState == .active))
    (hi : s.Issued i o) :
    Completes i s { s with pnlScratch := b, dcx := d, wire := s.wire ++ [⟨.tx, d, s.cs, b⟩] } .unit :=
  completes_of_panelCore hc hp hx hi <| hcore ▸ ends_check hi.1 hs (ends_act hi.1 <| ends_act hi.1 <| ends_act hi.1 done_returns)

theorem pnlReadByte_completes (hx : s.Passes (s.ctx == .thread)) (hs : s.Passes (s.pnlState == .active))
    (hi : s.Issued .pnlReadByte o) :
    Completes .pnlReadByte s
      { s with
        pnlScratch := Config.spiRx s.draws, dcx := .high, draws := s.draws + 1
        wire := s.wire ++ [⟨.rx, .high, s.cs, Config.spiRx s.draws⟩] }
      (.word ((Config.spiRx s.draws).zeroExtend 32)) :=
  completes_of_panelCore rfl rfl hx hi <| ends_check hi.1 hs <| ends_act hi.1 <| ends_spiRx hi.1 <| ends_act hi.1 <|
    ends_look done_returns

/-- Settles O50: two sends and a receipt. -/
theorem panelByteTransfersComplete : Obligations.PanelByteTransfersComplete := fun _ _ hx hs =>
  ⟨sendByte_completes rfl rfl rfl hx hs, sendByte_completes rfl rfl rfl hx hs, pnlReadByte_completes hx hs⟩

end Sys2Proof.Machine
end

section
/-! PROOFS. O18, O19, O21: the handlers to their return (R49, R80, R113 c, R460 to R462, R465). The second branch of a handler and
its return are run once for a handler that has come there from its entry and for one that comes back from a callback's body. -/

namespace Sys2Proof.Machine

variable {s : State} {E : Cell → Out → Prop} {k : Prog} {v : Vec} {a : Activation} {below : List Activation} {n off : Nat}
  {kind : CbKind} {flag sample i e cb first : Word} {log rs : List Word}

-- ==== the return, the acknowledge, the callbacks ====

/-- The end of a handler: the activation ends, and `t` is what else it leaves (R462). -/
def HandedBack (t : State) (below : List Activation) (_ : Cell) (o : Out) : Prop := o = .next { t with irq := below }

theorem done_handsBack {r : ResultVal} (hi : s.irq = a :: below) (hb : a.bodyCell = none) :
    (Prog.done r).Ends s (HandedBack s below) := fun c => ⟨c, rfl, by
  rw [run_done, State.finish]
  simp only [hi, hb]
  rfl⟩

theorem acknowledge_ends (h : s.sched = []) (hf : flag &&& 0xF = flag) (hk : k.Ends (s.acked flag) E) :
    (acknowledge flag k).Ends s E := fun c => run_acknowledge h hf ▸ hk ((c.push 0).push 0)

theorem callback_quiet_ends (h : s.sched = []) (hb : s.cbBody cb = []) (hk : k.Ends (s.addEvent (.cb kind)) E) :
    (callback kind cb k).Ends s E := fun c => run_callback_quiet h hb ▸ hk ((c.push 0).push 0)

/-- A branch whose callback must not be null, its body empty if the branch is taken (R460, R461). -/
theorem requiredBranch_ends (h : s.sched = []) (hn : s.cfg ≠ 0) (ha : aligned4 s.cfg = true) (hf : flag &&& 0xF = flag)
    (hq : hasBits sample flag = true → s.QuietCallback (BitVec.ofNat 32 off))
    (hk : k.Ends (if hasBits sample flag then (s.addEvent (.cb kind)).acked flag else s) E) :
    (whenFlag sample flag requiredSize (requiredCallback off kind flag) k).Ends s E :=
  fun c => by
    rw [run_firstBranch_quiet h hn ha hf hq]
    exact hk { c with
      step := c.step + 7
      log := branchLog sample flag (s.callbackId (BitVec.ofNat 32 off)) ++ c.log }

theorem whenFlag_ends {size : Int} {body : Prog → Prog} (ht : hasBits sample flag = true → (body k).Ends s E)
    (hf : hasBits sample flag = false → k.Ends s E) : (whenFlag sample flag size body k).Ends s E := by
  unfold whenFlag
  split
  next h => exact ht h
  next h => exact ends_jump (hf (Bool.eq_false_iff.2 h))

-- ==== the reload-done path ====

/-- The activations replaced. -/
def State.withIrq (s : State) (x : List Activation) : State := { s with irq := x }

theorem mapTop_eq (hi : s.irq = a :: below) (f : Activation → Activation) : s.mapTop f = s.withIrq (f a :: below) := by
  simp only [State.mapTop, hi]
  rfl

theorem withIrq_self (hi : s.irq = a :: below) : s.withIrq (a :: below) = s := by
  rw [← hi]
  rfl

/-- The parked agent, if any, is woken and the wait slot emptied (R460). -/
def State.woken (s : State) : State :=
  match s.waiter with
  | none => s
  | some g => { s.setWake g (some .ok) with events := s.events ++ [.wake g .ok], waiter := none }

theorem woken_none (h : s.waiter = none) : s.woken = s := by simp only [State.woken, h]

theorem woken_some {g : Agent} (h : s.waiter = some g) :
    s.woken = { s.setWake g (some .ok) with events := s.events ++ [.wake g .ok], waiter := none } := by
  simp only [State.woken, h]

/-- The activations have no part in a wake, whoever is woken. -/
theorem woken_withIrq (x : List Activation) : (s.withIrq x).woken = s.woken.withIrq x := by
  cases hw : s.waiter with
  | none => rw [woken_none hw, woken_none (s := s.withIrq x) hw]
  | some g =>
    rw [woken_some hw, woken_some (s := s.withIrq x) hw]
    rcases g with t | (_ | _) <;> rfl

theorem woken_irq : s.woken.irq = s.irq := by
  cases hw : s.waiter with
  | none => rw [woken_none hw]
  | some g =>
    rw [woken_some hw]
    exact State.setWake_irq ..

theorem woken_sched : s.woken.sched = s.sched := by
  cases hw : s.waiter with
  | none => rw [woken_none hw]
  | some g =>
    rw [woken_some hw]
    exact State.setWake_sched ..

/-- The reload-done path after its callback: wake, READY, acknowledge (R460). -/
theorem reloadCompleted_eq : s.reloadCompleted = ({ s.woken with drvState := .ready } : State).acked 8 := by
  unfold State.reloadCompleted
  cases hw : s.waiter with
  | none => rw [woken_none hw]; rfl
  | some g => rw [woken_some hw]; rfl

theorem reloadCompleted_irq : s.reloadCompleted.irq = s.irq := by
  rw [reloadCompleted_eq]
  exact woken_irq

theorem servedReload_irq : s.servedReload.irq = s.irq := by
  rw [State.servedReload, reloadCompleted_irq]
  split <;> rfl

theorem wakeParked_ends (h : s.sched = []) (hk : k.Ends s.woken E) : (wakeParked k).Ends s E := by
  refine ends_look ?_
  cases hw : s.waiter with
  | none =>
    rw [State.woken, hw] at hk
    exact ends_jump hk
  | some g =>
    have hsw : s.sendWake = s.setWake g (some .ok) := by simp only [State.sendWake, hw]
    have hlw : s.sendWake.logWake = s.sendWake.addEvent (.wake g .ok) := by
      have hw' : s.sendWake.waiter = some g := by simpa using hw
      simp only [State.logWake, hw']
    have hend : ({ s.sendWake.logWake with waiter := none } : State) = s.woken := by
      rw [hlw, woken_some hw, hsw, State.addEvent, State.setWake_events]
    exact ends_act h <| ends_act (by simpa using h) <| ends_act (by simpa using h) (hend ▸ hk)

/-- The handler opens its critical section, wakes, makes drv_state READY and closes it again: the activation is as it was
(R460). -/
theorem critical_eq (hi : s.irq = a :: below) (hc : a.crit = false) :
    ({ (s.mapTop fun a => { a with crit := true }).woken with drvState := .ready } : State).mapTop
      (fun a => { a with crit := false }) = { s.woken with drvState := .ready } := by
  have ha : ({ a with crit := false } : Activation) = a := by rw [← hc]
  rw [mapTop_eq hi, woken_withIrq, mapTop_eq rfl, ha]
  exact withIrq_self (s := { s.woken with drvState := .ready }) (woken_irq.trans hi)

/-- The reload-done path after its callback, in ACTIVE or without CHECKS (R460). -/
theorem completeReload_ends (h : s.sched = []) (hi : s.irq = a :: below) (hc : a.crit = false)
    (hd : s.Passes (s.drvState == .active)) (hk : k.Ends s.reloadCompleted E) : (completeReload k).Ends s E := by
  rw [reloadCompleted_eq, ← critical_eq hi hc] at hk
  have hs : (s.mapTop fun a => { a with crit := true }).sched = [] := by simpa using h
  have hp : (s.mapTop fun a => { a with crit := true }).Passes
      ((s.mapTop fun a => { a with crit := true }).drvState == .active) := by simpa [State.Passes] using hd
  have hw : (s.mapTop fun a => { a with crit := true }).woken.sched = [] := woken_sched.trans hs
  exact ends_act h <| ends_check hs hp <| wakeParked_ends hs <| ends_act hw <| ends_act hw <|
    acknowledge_ends (by simpa using hw) (by decide) hk

/-- The reload-done path, its callback null or with an empty body (R460). -/
theorem reloadDone_ends (h : s.sched = []) (hn : s.cfg ≠ 0) (ha : aligned4 s.cfg = true) (hi : s.irq = a :: below)
    (hc : a.crit = false) (hq : s.callbackId 36 = 0 ∨ s.cbBody (s.callbackId 36) = []) (hd : s.Passes (s.drvState == .active))
    (hk : k.Ends s.servedReload E) : (reloadDone k).Ends s E := by
  refine ends_cfgRd h hn ha ?_
  change (if s.callbackId 36 = 0 then _ else _ : Prog).Ends s E
  unfold State.servedReload at hk
  split at hk
  next h0 =>
    rw [if_pos h0]
    exact ends_jump (completeReload_ends h hi hc hd hk)
  next h0 =>
    rw [if_neg h0]
    exact callback_quiet_ends h (hq.resolve_left h0) (completeReload_ends (s := s.addEvent (.cb .reload)) h hi hc hd hk)

/-- What the second branch of EVENT_IRQ needs where it is taken (R460). -/
def State.ReloadServable (s : State) : Prop :=
  (s.callbackId 36 = 0 ∨ s.cbBody (s.callbackId 36) = []) ∧ s.Passes (s.drvState == .active)

/-- EVENT_IRQ's second branch, and its return (R460, R462). -/
theorem reloadBranch_handsBack (h : s.sched = []) (hi : s.irq = a :: below) (hb : a.bodyCell = none) (hc : a.crit = false)
    (hq : hasBits sample 8 = true → s.cfg ≠ 0 ∧ aligned4 s.cfg = true ∧ s.ReloadServable) :
    (whenFlag sample flagReload reloadDoneSize reloadDone (.done .unit)).Ends s
      (HandedBack (if hasBits sample 8 then s.servedReload else s) below) := by
  refine whenFlag_ends (fun ht => ?_) fun hf => ?_
  · change hasBits sample 8 = true at ht
    obtain ⟨hn, ha, hcb, hd⟩ := hq ht
    rw [if_pos ht]
    exact reloadDone_ends h hn ha hi hc hcb hd (done_handsBack (servedReload_irq.trans hi) hb)
  · change hasBits sample 8 = false at hf
    rw [if_neg (Bool.eq_false_iff.1 hf)]
    exact done_handsBack hi hb

/-- ERROR_IRQ's second branch, and its return (R461, R462). -/
theorem terrBranch_handsBack (h : s.sched = []) (hi : s.irq = a :: below) (hb : a.bodyCell = none)
    (hq : hasBits sample 4 = true → s.cfg ≠ 0 ∧ aligned4 s.cfg = true ∧ s.QuietCallback 44) :
    (whenFlag sample flagTerr requiredSize (requiredCallback 44 .terr flagTerr) (.done .unit)).Ends s
      (HandedBack (if hasBits sample 4 then s.servedTerr else s) below) := by
  cases ht : hasBits sample 4 with
  | true =>
    obtain ⟨hn, ha, hcb⟩ := hq ht
    refine requiredBranch_ends h hn ha (by decide) (fun _ => hcb) ?_
    rw [if_pos (show hasBits sample flagTerr = true from ht), if_pos rfl]
    exact done_handsBack (s := s.servedTerr) hi hb
  | false =>
    refine whenFlag_ends (fun ht' => ?_) fun _ => done_handsBack hi hb
    change hasBits sample 4 = true at ht'
    rw [ht] at ht'
    cases ht'

/-- A run that hands back is the step's outcome. -/
theorem Prog.Ends.handedBack {p : Prog} {t : State} {c : Cell} (h : p.Ends s (HandedBack t below)) :
    run p c s = .next { t with irq := below } := by
  obtain ⟨_, -, he⟩ := h c
  exact he

-- ==== from entry ====

/-- Settles O18: the sample, the line's branch, the reload's branch. -/
theorem eventIrqCompletes : Obligations.EventIrqCompletes := by
  intro s below h hn ha hl hr
  refine (eventIrq_sampled h).trans (Prog.Ends.handedBack ?_)
  refine requiredBranch_ends h.1 hn ha (by decide) hl ?_
  change Prog.Ends _ (if hasBits (s.isr &&& s.ier) 1 then s.servedLine else s) _
  cases hasBits (s.isr &&& s.ier) 1 with
  | true => exact reloadBranch_handsBack (s := s.servedLine) h.1 h.2 rfl rfl fun ht => ⟨hn, ha, hr ht⟩
  | false => exact reloadBranch_handsBack h.1 h.2 rfl rfl fun ht => ⟨hn, ha, hr ht⟩

/-- Settles O19: the sample, the underrun's branch, the transfer error's branch. -/
theorem errorIrqCompletes : Obligations.ErrorIrqCompletes := by
  intro s below h hn ha hu ht
  refine (errorIrq_sampled h).trans (Prog.Ends.handedBack ?_)
  refine requiredBranch_ends h.1 hn ha (by decide) hu ?_
  change Prog.Ends _ (if hasBits (s.isr &&& s.ier) 2 then s.servedUnderrun else s) _
  cases hasBits (s.isr &&& s.ier) 2 with
  | true => exact terrBranch_handsBack (s := s.servedUnderrun) h.1 h.2 rfl fun hf => ⟨hn, ha, ht hf⟩
  | false => exact terrBranch_handsBack h.1 h.2 rfl fun hf => ⟨hn, ha, ht hf⟩

-- ==== from a callback's body ====

/-- A handler that comes back to its place goes on with what its cell's log leaves of its body (R31, R465). -/
theorem handler_resumed {j : Instr} {body : Prog} (hi : s.irq = handlerAt v n log [] :: below) :
    handler j v body s = run (body.after log.reverse) ⟨v.word, ⟨0, 0⟩, n, log, none⟩ s := by
  have hv : s.inHandler v = true := by simp [State.inHandler, hi, handlerAt]
  have hc : s.curCell = some ⟨v.word, ⟨0, 0⟩, n, log, none⟩ := by simp only [State.curCell, hi, handlerAt]
  rw [handler, if_pos hv]
  simp only [State.resume, State.cellOf, hc]

/-- The first branch leaves nothing of itself after its log: seven values if taken, the jump's if not (log 3). -/
theorem after_firstBranch :
    (whenFlag sample flag requiredSize (requiredCallback off kind flag) k).after ((branchLog sample flag first).reverse ++ rs)
      = k.after rs := by
  unfold whenFlag branchLog
  split <;> rfl

/-- Past the body of a required callback the acknowledge is left (R460, R461). -/
theorem after_requiredBody (hf : hasBits sample flag = true) :
    (whenFlag sample flag requiredSize (requiredCallback off kind flag) k).after [cb, 0, 0, 0, 0] = acknowledge flag k := by
  rw [whenFlag, if_pos hf]
  rfl

/-- Past the body of the reload-done callback the rest of its path is left (R460). -/
theorem after_reloadBody (hf : hasBits sample flagReload = true) (h0 : cb ≠ 0) :
    (whenFlag sample flagReload reloadDoneSize reloadDone k).after [cb, 0, 0] = completeReload k := by
  rw [whenFlag, if_pos hf]
  show (if cb = 0 then jump 2 (completeReload k) else callback .reload cb (completeReload k)).after [0, 0] = _
  rw [if_neg h0]
  rfl

theorem eventIrq_afterLine (h : s.sched = []) (hi : s.irq = handlerAt .event 7 [0, 0, 0, 0, cb, e, i] [] :: below)
    (hf : hasBits (i &&& e) 1 = true)
    (hq : hasBits (i &&& e) 8 = true → s.cfg ≠ 0 ∧ aligned4 s.cfg = true
      ∧ (s.callbackId 36 = 0 ∨ s.cbBody (s.callbackId 36) = []) ∧ s.Passes (s.drvState == .active)) :
    exec .eventIrq s = .next
      { (if hasBits (i &&& e) 8 then (s.acked 1).servedReload else s.acked 1) with irq := below } := by
  have hleft : eventIrqBody.after ([0, 0, 0, 0, cb, e, i] : List Word).reverse = acknowledge flagLine
      (whenFlag (i &&& e) flagReload reloadDoneSize reloadDone (.done .unit)) := after_requiredBody (flag := flagLine) hf
  refine (handler_resumed hi).trans ?_
  rw [hleft]
  exact (acknowledge_ends h (by decide) (reloadBranch_handsBack (s := s.acked 1) h hi rfl rfl hq)).handedBack

theorem eventIrq_afterReload (h : s.sched = [])
    (hi : s.irq = handlerAt .event 12 ([0, 0, cb] ++ branchLog (i &&& e) 1 first ++ [e, i]) [] :: below)
    (hf : hasBits (i &&& e) 8 = true) (h0 : cb ≠ 0) (hd : s.Passes (s.drvState == .active)) :
    exec .eventIrq s = .next { s.reloadCompleted with irq := below } := by
  have hleft : eventIrqBody.after ([0, 0, cb] ++ branchLog (i &&& e) 1 first ++ [e, i]).reverse
      = completeReload (.done .unit) := by
    simp only [List.reverse_append, List.append_assoc]
    exact (after_firstBranch (flag := flagLine)).trans (after_reloadBody hf h0)
  refine (handler_resumed hi).trans ?_
  rw [hleft]
  exact (completeReload_ends h hi rfl hd (done_handsBack (reloadCompleted_irq.trans hi) rfl)).handedBack

theorem errorIrq_afterUnderrun (h : s.sched = []) (hi : s.irq = handlerAt .error 7 [0, 0, 0, 0, cb, e, i] [] :: below)
    (hf : hasBits (i &&& e) 2 = true)
    (hq : hasBits (i &&& e) 4 = true → s.cfg ≠ 0 ∧ aligned4 s.cfg = true ∧ s.QuietCallback 44) :
    exec .errorIrq s = .next
      { (if hasBits (i &&& e) 4 then (s.acked 2).servedTerr else s.acked 2) with irq := below } := by
  have hleft : errorIrqBody.after ([0, 0, 0, 0, cb, e, i] : List Word).reverse = acknowledge flagUnderrun
      (whenFlag (i &&& e) flagTerr requiredSize (requiredCallback 44 .terr flagTerr) (.done .unit)) :=
    after_requiredBody (flag := flagUnderrun) hf
  refine (handler_resumed hi).trans ?_
  rw [hleft]
  exact (acknowledge_ends h (by decide) (terrBranch_handsBack (s := s.acked 2) h hi rfl hq)).handedBack

theorem errorIrq_afterTerr (h : s.sched = [])
    (hi : s.irq = handlerAt .error 14 ([0, 0, 0, 0, cb] ++ branchLog (i &&& e) 2 first ++ [e, i]) [] :: below)
    (hf : hasBits (i &&& e) 4 = true) : exec .errorIrq s = .next { s.acked 4 with irq := below } := by
  have hleft : errorIrqBody.after ([0, 0, 0, 0, cb] ++ branchLog (i &&& e) 2 first ++ [e, i]).reverse
      = acknowledge flagTerr (.done .unit) := by
    simp only [List.reverse_append, List.append_assoc]
    exact (after_firstBranch (flag := flagUnderrun)).trans (after_requiredBody hf)
  refine (handler_resumed hi).trans ?_
  rw [hleft]
  exact (acknowledge_ends h (by decide) (done_handsBack (s := s.acked 4) hi rfl)).handedBack

/-- Settles O21: each of the four resumptions by the lemma above that runs what is left. -/
theorem handlerResumesAfterTheCallbackBody : Obligations.HandlerResumesAfterTheCallbackBody :=
  fun _ _ _ _ _ _ h => ⟨eventIrq_afterLine h, eventIrq_afterReload h, errorIrq_afterUnderrun h, errorIrq_afterTerr h⟩

end Sys2Proof.Machine
end

section
/-! PROOFS. O46 and O47: the deferred RELOAD_WAIT with the wait slot (R34, R206, R455, R520). It parks and falls asleep at the second
micro-step of its sleep, and goes on from there once it is woken. The parked cell is named, so the runs keep the cell. -/

namespace Sys2Proof.Machine

variable {s : State} {c : Cell} {ret : ResultVal → Prog} {o : Operands} {f : Form} {x : Word}

-- ==== falling asleep ====

/-- The state of an agent that has requested a deferred reload, parked and fallen asleep (R206). -/
def State.asleep (s : State) : State := { s with srcr := s.srcr ||| 0x2, waiter := some s.self, lockHolder := none }

/-- What is written before the sleep leaves the messages. -/
theorem wakeOf_beforeSleep {d : DrvState} {r : Word} {w : Option Agent} (g : Agent) :
    ({ s with drvState := d, srcr := r, waiter := w } : State).wakeOf g = s.wakeOf g := by
  rcases g with t | (_ | _) <;> rfl

/-- The sleeping wait, no message waiting, stands at the second micro-step of its sleep (R206). -/
theorem run_sleepingWait_parks (h : s.sched = []) (hm : s.wakeOf s.self = none) :
    run (sleepingWait ret) c s = .next (s.asleep.suspend { ((c.push 0).push 0).push 0 with wait := some .wake }) := by
  have hp : (s.regWrite .srcr srcrVbr).sched = [] := h
  rw [sleepingWait, run_wr h, run_act hp, run_sleep_parked (s := (s.regWrite .srcr srcrVbr).park) hp
    ((wakeOf_beforeSleep (d := s.drvState) _).trans hm)]
  rfl

/-- The core of a deferred RELOAD_WAIT, its checks passed and no message waiting, sleeps eleven micro-steps on (R206). -/
theorem run_reloadWaitCore_parks (h : s.sched = []) (hw : s.Passes s.waiter.isNone) (hd : s.Passes (s.drvState == .ready))
    (hm : s.wakeOf s.self = none) :
    run (reloadWaitCore true 0 ret) c s
      = .next (({ s with drvState := .active } : State).asleep.suspend
          { c with step := c.step + 11, log := [0, 0, 0, 0, 0, 0, 0] ++ c.log, wait := some .wake }) := by
  rw [reloadWaitCore, run_check_pass (p := fun s => s.waiter.isNone) h hw,
    run_check_pass (p := fun s => s.drvState == .ready) h hd, run_act h, if_pos rfl, if_neg (by decide), run_jump]
  exact run_sleepingWait_parks (s := { s with drvState := .active }) h
    ((wakeOf_beforeSleep (r := s.srcr) (w := s.waiter) _).trans hm)

/-- Taking the lock leaves every message. -/
theorem wakeOf_takeLock {t : Nat} (g : Agent) : (s.takeLock t).wakeOf g = s.wakeOf g := by
  rcases g with u | (_ | _)
  · simp only [State.wakeOf, State.threadAt, State.takeLock, State.setThread, List.getD_eq_getElem?_getD, List.getElem?_modify]
    cases s.threads[u]? with
    | none => rfl
    | some th =>
      show (if t = u then { th with locked := true } else th).wakeMsg = th.wakeMsg
      split <;> rfl
  · rfl
  · rfl

/-- Settles O46: the prologue of each form, then the core. -/
theorem deferredReloadWaitParks : Obligations.DeferredReloadWaitParks := by
  intro f o s hm hi hw hd hu hx hmsg
  have he : exec (.reloadWait f) s = command (.reloadWait f) (.schedLocked f) (fun o => reloadWaitCore true o.x) s := by
    rw [exec_eq_command s rfl, hu]
    rfl
  have hwf := wellFormed_of_form (i := .reloadWait f) s.par.useMutex (.inr rfl)
  cases f with
  | api =>
    have hl := run_reloadWaitCore_parks (s := s.takeLock s.cur) (ret := fun v => unlockStep (.done v))
      (c := ⟨encode (.reloadWait .api), o, 3, [0, 0, 0], none⟩) hi.1 hw hd ((wakeOf_takeLock _).trans hmsg)
    rw [he, command_schedLocked_api hi hwf hm.1 hm.2, hx, hl]
    rfl
  | locked =>
    rw [he, command_schedLocked_locked hi hwf hm, hx, run_reloadWaitCore_parks hi.1 hw hd hmsg]
    rfl

-- ==== waking ====

/-- A command under way, whatever it was held for, runs what its cell's log leaves of its pseudocode (R31). -/
theorem command_resumed_held {i : Instr} {cl : CmdClass} {core : Operands → Core} (h : s.curCell = some c) :
    command i cl core s = run ((dispatch i cl (core c.ops)).after c.log.reverse) { c with wait := none } s := by
  have hc : s.cellOf (encode i) = { c with wait := none } := by simp only [State.cellOf, h]
  simp only [command, State.resume, hc]

/-- What a sleeper has left: the second micro-step of its sleep, its message, its return (R206). -/
def wakeUp (ret : ResultVal → Prog) : Prog :=
  holdUntil (fun s => s.wakeReady s.self) .wake (fun s => s.takeBack s.self) <| act (fun s => s.takeMsg) <| ret (.msg .ok)

/-- A sleeper's log leaves it its waking, in either form (R206, log 3). -/
theorem after_sleep (hx : x = 0) (w : Option Wait) :
    (dispatch (.reloadWait f) (.schedLocked f) (reloadWaitCore true x)).after (parkedCell f o w).log.reverse
      = wakeUp (match f with
        | .api => fun v => unlockStep (.done v)
        | .locked => .done) := by
  subst hx
  cases f <;> rfl

/-- A message taken leaves the lock, whoever takes it. -/
theorem setWake_withLockHolder {lk : Option Agent} (g : Agent) (m : Option Msg) :
    ({ s with lockHolder := lk } : State).setWake g m = { s.setWake g m with lockHolder := lk } := by
  rcases g with t | (_ | _) <;> rfl

/-- A sleeper with its message and the lock free takes both and goes on to its return (R34, R206). -/
theorem run_wakeUp (h : s.sched = []) (hl : s.lockHolder = none) (hm : s.wakeOf s.self = some .ok) :
    run (wakeUp ret) c s
      = run (ret (.msg .ok)) ((c.push 0).push 0) { s.setWake s.self none with lockHolder := some s.self } := by
  have hr : s.wakeReady s.self = true := by simp only [State.wakeReady, hm, hl]; rfl
  have ht : (s.takeBack s.self).takeMsg = { s.setWake s.self none with lockHolder := some s.self } :=
    setWake_withLockHolder s.self none
  rw [wakeUp, run_holdUntil_free h hr, run_act (by simpa using h), ht]

/-- Settles O47: what the parked cell leaves, and the return of each form. -/
theorem deferredReloadWaitWakes : Obligations.DeferredReloadWaitWakes := by
  intro f o s w h hu hx hl _ hc hm
  have hops : (parkedCell f o w).ops = o := by cases f <;> rfl
  have he : exec (.reloadWait f) s = command (.reloadWait f) (.schedLocked f) (fun o => reloadWaitCore true o.x) s := by
    rw [exec_eq_command s rfl, hu]
    rfl
  rw [he, command_resumed_held hc, after_sleep (by rw [hops]; exact hx), run_wakeUp h hl hm]
  have hs : (s.setWake s.self none).sched = [] := by simpa using h
  cases f with
  | api =>
    refine (run_unlockStep (s := { s.setWake s.self none with lockHolder := some s.self }) hs).trans ?_
    rw [run_done]
    have hcur : (s.setWake s.self none).cur = s.cur := State.setWake_cur ..
    show _ = Host.Outcome.next (((s.setWake s.self none).releaseLock s.cur).finish _ _)
    rw [← hcur]
    rfl
  | locked =>
    rw [run_done]
    rfl

end Sys2Proof.Machine
end
